-- ==== Sys2Proof/Word.lean ====
section
/-! DEFINITION. The word types of LSC-CORE: bytes, byte strings, 32-bit host register words, 64-bit lanes,
and the number of a context (00_scope.md rules R8, R9; 10_state.md rule R21; 30_encoding.md rule R100). -/

namespace Sys2Proof

/-- A byte, 8 bits (rule R8). -/
abbrev Byte := BitVec 8

/-- A byte string (rule R8): `s[i]` is byte `i` counting from 0. -/
abbrev Bytes := List Byte

/-- A host register word: every host register is 32 bits wide (rule R21). -/
abbrev Word := BitVec 32

/-- A 64-bit word: a Keccak lane (rule R251), a BLAKE2b word (rule R300), a SHA-512 word (rule R200). -/
abbrev Lane := BitVec 64

/-- The number in the 4-bit `ctx` or `ctx2` field of a command word (rules R100, R104). -/
abbrev CtxId := Fin 16

end Sys2Proof
end

