-- ==== Sys2Proof/Syntax.lean ====
section
/-! DEFINITION. The 36 commands of LSC-CORE (30_encoding.md rule R105), one constructor per row of the
opcode table. A constructor carries what the command word carries: the context index, for `CLONE` the
second index, for `UPDB` the immediate byte, and one Bool per admitted flag bit (rules R100 to R103). -/

namespace Sys2Proof

/-- The commands, in the order of rule R105's table. -/
inductive Instr
  /-- `RESET c` (rule R140) -/
  | reset (c : CtxId)
  /-- `CLONE cd, cs`: destination `ctx`, source `ctx2` (rule R141) -/
  | clone (d src : CtxId)
  /-- `DISPOSE c` (rule R142) -/
  | dispose (c : CtxId)
  /-- `GETALG c` (rule R143) -/
  | getalg (c : CtxId)
  /-- `GETHLEN c` (rule R144) -/
  | gethlen (c : CtxId)
  /-- `GETBLEN c` (rule R145) -/
  | getblen (c : CtxId)
  /-- `GETHF c` (rule R339) -/
  | gethf (c : CtxId)
  /-- `NEW.SHA1 c` (rule R207) -/
  | newSha1 (c : CtxId)
  /-- `NEW.SHA256 c` (rule R208) -/
  | newSha256 (c : CtxId)
  /-- `NEW.SHA512 c` (rule R209) -/
  | newSha512 (c : CtxId)
  /-- `NEW.SHA3 c` (rule R270) -/
  | newSha3 (c : CtxId)
  /-- `NEW.SHAKE c` (rule R271) -/
  | newShake (c : CtxId)
  /-- `NEW.CSHAKE c [, NAMEP][|AUXP]` (rule R272) -/
  | newCshake (c : CtxId) (namep auxp : Bool)
  /-- `NEW.BLAKE2B c [, KEYP][|SALTP][|AUXP]` (rule R310) -/
  | newBlake2b (c : CtxId) (keyp saltp auxp : Bool)
  /-- `WRAP.HMAC c` (rule R332) -/
  | wrapHmac (c : CtxId)
  /-- `WRAP.HKDF c` (rule R350) -/
  | wrapHkdf (c : CtxId)
  /-- `WRAP.PBKDF2 c [, ITERP]` (rule R361) -/
  | wrapPbkdf2 (c : CtxId) (iterp : Bool)
  /-- `NEW.PBKDF2 c [, ITERP]` (rule R360) -/
  | newPbkdf2 (c : CtxId) (iterp : Bool)
  /-- `UPDB c, #b` (rule R150) -/
  | updb (c : CtxId) (b : Byte)
  /-- `UPD c` (rule R151) -/
  | upd (c : CtxId)
  /-- `UPDR c` (rule R152) -/
  | updr (c : CtxId)
  /-- `FIN c` (rule R153) -/
  | fin (c : CtxId)
  /-- `FINO c` (rule R154) -/
  | fino (c : CtxId)
  /-- `FINOL c` (rule R155) -/
  | finol (c : CtxId)
  /-- `OUT c` (rule R156) -/
  | out (c : CtxId)
  /-- `OUTL c` (rule R157) -/
  | outl (c : CtxId)
  /-- `CH c` (rule R158) -/
  | ch (c : CtxId)
  /-- `CHR c` (rule R159) -/
  | chr (c : CtxId)
  /-- `CHL c` (rule R160) -/
  | chl (c : CtxId)
  /-- `CHRL c` (rule R161) -/
  | chrl (c : CtxId)
  /-- `MINIT c` (rule R333) -/
  | minit (c : CtxId)
  /-- `MCH c` (rule R338) -/
  | mch (c : CtxId)
  /-- `HKDF.EXTRACT c [, SALTP]` (rule R353) -/
  | hkdfExtract (c : CtxId) (saltp : Bool)
  /-- `HKDF.EXPAND c [, AUXP]` (rule R354) -/
  | hkdfExpand (c : CtxId) (auxp : Bool)
  /-- `HKDF.DERIVE c [, SALTP][|AUXP]` (rule R355) -/
  | hkdfDerive (c : CtxId) (saltp auxp : Bool)
  /-- `PBKDF2.DERIVE c [, ITERP]` (rule R363) -/
  | pbkdf2Derive (c : CtxId) (iterp : Bool)
  deriving DecidableEq, Repr

/-- The target context index, field `ctx` of the word (rule R100); for `CLONE` the destination. -/
def Instr.target : Instr → CtxId
  | .reset c | .clone c _ | .dispose c | .getalg c | .gethlen c | .getblen c | .gethf c => c
  | .newSha1 c | .newSha256 c | .newSha512 c | .newSha3 c | .newShake c => c
  | .newCshake c _ _ | .newBlake2b c _ _ _ => c
  | .wrapHmac c | .wrapHkdf c | .wrapPbkdf2 c _ | .newPbkdf2 c _ => c
  | .updb c _ | .upd c | .updr c | .fin c | .fino c | .finol c | .out c | .outl c => c
  | .ch c | .chr c | .chl c | .chrl c | .minit c | .mch c => c
  | .hkdfExtract c _ | .hkdfExpand c _ | .hkdfDerive c _ _ | .pbkdf2Derive c _ => c

end Sys2Proof
end

