-- ==== Sys2Proof/Decode.lean ====
section
/-! DEFINITION. The command word: field extraction, the total decoder, and after it the encoder, both
written from 30_encoding.md rules R100 to R105, R110 and R115. -/

namespace Sys2Proof

/-- The five fields of a command word (rule R100). -/
structure Fields where
  opcode : BitVec 8
  ctx    : CtxId
  ctx2   : CtxId
  flags  : BitVec 8
  imm8   : Byte
  deriving DecidableEq, Repr

/-- Bits [7:0], [11:8], [15:12], [23:16] and [31:24] of the word (rule R100). -/
def fieldsOf (w : Word) : Fields where
  opcode := w.extractLsb' 0 8
  ctx    := (w.extractLsb' 8 4).toFin
  ctx2   := (w.extractLsb' 12 4).toFin
  flags  := w.extractLsb' 16 8
  imm8   := w.extractLsb' 24 8

/-- `KEYP`, bit 16 of the word, bit 0 of `flags` (rules R102, R115). -/
def flagKEYP : BitVec 8 := 0x01
/-- `SALTP`, bit 17. -/
def flagSALTP : BitVec 8 := 0x02
/-- `AUXP`, bit 18. -/
def flagAUXP : BitVec 8 := 0x04
/-- `NAMEP`, bit 19. -/
def flagNAMEP : BitVec 8 := 0x08
/-- `ITERP`, bit 20. -/
def flagITERP : BitVec 8 := 0x10

/-- Is the flag set in the word? -/
def Fields.has (f : Fields) (flag : BitVec 8) : Bool := f.flags &&& flag != 0

/-- Format `N`: `opcode` and `ctx` only, every other field zero (rule R101). -/
def formatN (f : Fields) (i : Instr) : Option Instr :=
  if f.ctx2 = 0 ∧ f.flags = 0 ∧ f.imm8 = 0 then some i else none

/-- Format `C`: `opcode`, `ctx`, `ctx2` (rule R101). -/
def formatC (f : Fields) (i : Instr) : Option Instr :=
  if f.flags = 0 ∧ f.imm8 = 0 then some i else none

/-- Format `F`: `opcode`, `ctx` and the admitted flags; any other flag bit must be zero (rule R101). -/
def formatF (f : Fields) (admitted : BitVec 8) (i : Instr) : Option Instr :=
  if f.ctx2 = 0 ∧ f.flags &&& ~~~admitted = 0 ∧ f.imm8 = 0 then some i else none

/-- Format `I`: `opcode`, `ctx`, `imm8` (rule R101). -/
def formatI (f : Fields) (i : Instr) : Option Instr :=
  if f.ctx2 = 0 ∧ f.flags = 0 then some i else none

/-- The decoder: the command a word spells, or `none` for a word that spells none. It makes every test of
rule R110 level 1 but `ctx < NCTX`, which is tested when the command executes, because `NCTX` is a
parameter of the instance (log entry 9). -/
def decode (w : Word) : Option Instr :=
  let f := fieldsOf w
  match f.opcode.toNat with
  | 0x01 => formatN f (.reset f.ctx)
  | 0x02 => formatC f (.clone f.ctx f.ctx2)
  | 0x03 => formatN f (.dispose f.ctx)
  | 0x04 => formatN f (.getalg f.ctx)
  | 0x05 => formatN f (.gethlen f.ctx)
  | 0x06 => formatN f (.getblen f.ctx)
  | 0x07 => formatN f (.gethf f.ctx)
  | 0x10 => formatN f (.newSha1 f.ctx)
  | 0x11 => formatN f (.newSha256 f.ctx)
  | 0x12 => formatN f (.newSha512 f.ctx)
  | 0x13 => formatN f (.newSha3 f.ctx)
  | 0x14 => formatN f (.newShake f.ctx)
  | 0x15 => formatF f (flagNAMEP ||| flagAUXP) (.newCshake f.ctx (f.has flagNAMEP) (f.has flagAUXP))
  | 0x16 => formatF f (flagKEYP ||| flagSALTP ||| flagAUXP)
      (.newBlake2b f.ctx (f.has flagKEYP) (f.has flagSALTP) (f.has flagAUXP))
  | 0x18 => formatN f (.wrapHmac f.ctx)
  | 0x19 => formatN f (.wrapHkdf f.ctx)
  | 0x1A => formatF f flagITERP (.wrapPbkdf2 f.ctx (f.has flagITERP))
  | 0x1B => formatF f flagITERP (.newPbkdf2 f.ctx (f.has flagITERP))
  | 0x20 => formatI f (.updb f.ctx f.imm8)
  | 0x21 => formatN f (.upd f.ctx)
  | 0x22 => formatN f (.updr f.ctx)
  | 0x24 => formatN f (.fin f.ctx)
  | 0x25 => formatN f (.fino f.ctx)
  | 0x26 => formatN f (.finol f.ctx)
  | 0x28 => formatN f (.out f.ctx)
  | 0x29 => formatN f (.outl f.ctx)
  | 0x2A => formatN f (.ch f.ctx)
  | 0x2B => formatN f (.chr f.ctx)
  | 0x2C => formatN f (.chl f.ctx)
  | 0x2D => formatN f (.chrl f.ctx)
  | 0x30 => formatN f (.minit f.ctx)
  | 0x31 => formatN f (.mch f.ctx)
  | 0x40 => formatF f flagSALTP (.hkdfExtract f.ctx (f.has flagSALTP))
  | 0x41 => formatF f flagAUXP (.hkdfExpand f.ctx (f.has flagAUXP))
  | 0x42 => formatF f (flagSALTP ||| flagAUXP) (.hkdfDerive f.ctx (f.has flagSALTP) (f.has flagAUXP))
  | 0x43 => formatF f flagITERP (.pbkdf2Derive f.ctx (f.has flagITERP))
  | _ => none

/-- The decoder on a word numbered as `opcode_table.json` numbers it. A command is exactly one 32-bit word
(rule R100); its bits above `nbits` are zero. A host register word has no byte order (rule R71). -/
def decodeTableWord (nbits w : Nat) : Option Instr := decode (BitVec.ofNat 32 (w % 2 ^ nbits))

/-- The word of a command line: `imm8<<24 | flags<<16 | ctx2<<12 | ctx<<8 | opcode` (rule R115). -/
def pack (opcode : BitVec 8) (ctx : CtxId) (ctx2 : CtxId := 0) (flags : BitVec 8 := 0) (imm8 : Byte := 0) : Word :=
  imm8.setWidth 32 <<< 24 ||| flags.setWidth 32 <<< 16 ||| BitVec.ofNat 32 ctx2.val <<< 12
    ||| BitVec.ofNat 32 ctx.val <<< 8 ||| opcode.setWidth 32

/-- The flag's bit where the option is present, else zero. -/
def flagIf (present : Bool) (flag : BitVec 8) : BitVec 8 := if present then flag else 0

/-- The encoder (rules R100, R102, R105). -/
def encode : Instr → Word
  | .reset c => pack 0x01 c
  | .clone d s => pack 0x02 d s
  | .dispose c => pack 0x03 c
  | .getalg c => pack 0x04 c
  | .gethlen c => pack 0x05 c
  | .getblen c => pack 0x06 c
  | .gethf c => pack 0x07 c
  | .newSha1 c => pack 0x10 c
  | .newSha256 c => pack 0x11 c
  | .newSha512 c => pack 0x12 c
  | .newSha3 c => pack 0x13 c
  | .newShake c => pack 0x14 c
  | .newCshake c n a => pack 0x15 c 0 (flagIf n flagNAMEP ||| flagIf a flagAUXP)
  | .newBlake2b c k s a => pack 0x16 c 0 (flagIf k flagKEYP ||| flagIf s flagSALTP ||| flagIf a flagAUXP)
  | .wrapHmac c => pack 0x18 c
  | .wrapHkdf c => pack 0x19 c
  | .wrapPbkdf2 c i => pack 0x1A c 0 (flagIf i flagITERP)
  | .newPbkdf2 c i => pack 0x1B c 0 (flagIf i flagITERP)
  | .updb c b => pack 0x20 c 0 0 b
  | .upd c => pack 0x21 c
  | .updr c => pack 0x22 c
  | .fin c => pack 0x24 c
  | .fino c => pack 0x25 c
  | .finol c => pack 0x26 c
  | .out c => pack 0x28 c
  | .outl c => pack 0x29 c
  | .ch c => pack 0x2A c
  | .chr c => pack 0x2B c
  | .chl c => pack 0x2C c
  | .chrl c => pack 0x2D c
  | .minit c => pack 0x30 c
  | .mch c => pack 0x31 c
  | .hkdfExtract c s => pack 0x40 c 0 (flagIf s flagSALTP)
  | .hkdfExpand c a => pack 0x41 c 0 (flagIf a flagAUXP)
  | .hkdfDerive c s a => pack 0x42 c 0 (flagIf s flagSALTP ||| flagIf a flagAUXP)
  | .pbkdf2Derive c i => pack 0x43 c 0 (flagIf i flagITERP)

end Sys2Proof
end

