-- ==== Sys2Proof/Machine/Packing.lean ====
section
/-! DEFINITION. Byte packing and the plain operations on byte strings: 00_scope.md rules R8, R9, R11 and
20_memory.md rules R76 to R79. -/

namespace Sys2Proof.Machine

/-- `zeros(n)` (rule R8). -/
def zeros (n : Nat) : Bytes := List.replicate n 0

/-- `s[a .. a+n)` (rule R8). -/
def slice (s : Bytes) (a n : Nat) : Bytes := (s.drop a).take n

/-- `be(s)` (rule R11): byte 0 is the most significant. -/
def beNat (s : Bytes) : Nat := s.foldl (fun v b => 256 * v + b.toNat) 0

/-- `le(s)` (rule R11): byte 0 is the least significant. -/
def leNat (s : Bytes) : Nat := s.foldr (fun b v => b.toNat + 256 * v) 0

/-- `BE_n(v)` (rule R11). -/
def beBytes (n v : Nat) : Bytes := (List.range n).map fun i => BitVec.ofNat 8 (v / 256 ^ (n - 1 - i))

/-- `LE_n(v)` (rule R11). -/
def leBytes (n v : Nat) : Bytes := (List.range n).map fun i => BitVec.ofNat 8 (v / 256 ^ i)

/-- Words 0 to `n-1` of a block of big-endian words of `w/8` bytes (rule R76). -/
def beWords (w n : Nat) (block : Bytes) : List (BitVec w) :=
  (List.range n).map fun i => BitVec.ofNat w (beNat (slice block (w / 8 * i) (w / 8)))

/-- 64-bit little-endian word `i` of a byte string (rules R77, R78). -/
def leLane (s : Bytes) (i : Nat) : Lane := BitVec.ofNat 64 (leNat (slice s (8 * i) 8))

/-- Bytewise exclusive or. -/
def xorBytes (a b : Bytes) : Bytes := List.zipWith (· ^^^ ·) a b

/-- Every byte of `s` exclusive-ored with `b`. -/
def xorByte (b : Byte) (s : Bytes) : Bytes := s.map (· ^^^ b)

/-- Set bit `i` of a byte string, bit 0 the least significant of byte 0 (rules R77, R262). -/
def setBit (s : Bytes) (i : Nat) : Bytes := s.modify (i / 8) (· ||| ((1 : Byte) <<< (i % 8)))

/-- `ceil(a / b)` for `b > 0` (rule R9). -/
def ceilDiv (a b : Nat) : Nat := (a + b - 1) / b

/-- `SHR(a, n)`: zeros shifted in (rule R9). -/
def shr {w : Nat} (a : BitVec w) (n : Nat) : BitVec w := a >>> n

/-- `ROTL_w(a, n)` (rule R9). -/
def rotl {w : Nat} (a : BitVec w) (n : Nat) : BitVec w := a.rotateLeft n

/-- `ROTR_w(a, n)` (rule R9). -/
def rotr {w : Nat} (a : BitVec w) (n : Nat) : BitVec w := a.rotateRight n

end Sys2Proof.Machine
end

