-- ==== Sys2Proof/Config.lean ====
section
/-! DEFINITION. What an instance of LSC-CORE fixes: the constants of 00_scope.md rule R7, the part
identifier, the values of the open parameters used by `State.reset`, and the free values (constants with
no body, of which nothing can be proved but that they are there). -/

namespace Sys2Proof.Config

/-- `ID` reads this constant, ASCII "LSC7" (rules R1, R28). -/
def partId : Word := 0x4C534337

/-- `PBKDF2_DEFAULT_ITER` (rule R7; rule R360). -/
def pbkdf2DefaultIter : Nat := 10000

/-- `HKDF_MAX_BLOCKS`: the longest HKDF output is 255 times `hashLen` (rule R7). -/
def hkdfMaxBlocks : Nat := 255

/-- The value of the open parameter `NCTX` in `State.reset`: the instance of the spec's vectors
(DESIGN CHOICE, log entry 1; every state the statements range over carries its own number of contexts). -/
def instanceNctx : Nat := 4

/-- The value of the open parameter `MEM_BYTES` in `State.reset` (DESIGN CHOICE, log entry 1). -/
def instanceMemsz : Word := 4096

/-- FREE VALUE (log entry 2): what byte `a` of operand memory holds when neither the host nor a command has
written it since the `epoch`-th hardware reset. Unconstrained and stable between resets (rule R41; 93 U9). -/
opaque unwrittenByte (epoch a : Nat) : Byte

/-- OPEN parameters of the platform that no rule of the spec reads (rule R70; 92 D6; log entry 12). -/
opaque regBase : Nat
/-- See `regBase`. -/
opaque opmemBase : Nat

end Sys2Proof.Config
end

