-- ==== Sys2Proof/Machine/State.lean ====
section
/-! DEFINITION. The state of LSC-CORE as plain data: the tuple `(reg, mem, ctx)` of 10_state.md rule R20 with
the object records of rules R32 to R37, the two hardwired parameters, and the events the outside world has
still to perform; the reset state (rules R44, R411); the error codes, faults and refusals. -/

namespace Sys2Proof.Machine

/-! ### Register sets -/

/-- Five words of `w` bits: the chaining registers `H[0..4]` (A to E) of SHA-1 (rules R32, R33). -/
structure Words5 (w : Nat) where
  h0 : BitVec w
  h1 : BitVec w
  h2 : BitVec w
  h3 : BitVec w
  h4 : BitVec w
  deriving DecidableEq, Repr

/-- Eight words of `w` bits: `H[0..7]` of SHA-256 and SHA-512, `h[0..7]` of BLAKE2b (rules R32, R33, R35). -/
structure Words8 (w : Nat) where
  h0 : BitVec w
  h1 : BitVec w
  h2 : BitVec w
  h3 : BitVec w
  h4 : BitVec w
  h5 : BitVec w
  h6 : BitVec w
  h7 : BitVec w
  deriving DecidableEq, Repr

/-- The 25 lanes of the Keccak state, `A[x + 5y]` (rules R34, R251). -/
abbrev Lanes := Vector Lane 25

/-! ### Hash engines -/

/-- The Merkle–Damgård algorithms (rule R32 `alg`). -/
inductive MdAlg
  | sha1 | sha256 | sha512
  deriving DecidableEq, Repr

/-- `alg`, `H` and `byteCount` of an `MD` object: the constructor is the algorithm, and fixes the widths
rule R32 gives (SHA-512's byte counter is the two 64-bit words `(hi, lo)` of rule R204). -/
inductive MdRegs
  | sha1 (H : Words5 32) (byteCount : BitVec 64)
  | sha256 (H : Words8 32) (byteCount : BitVec 64)
  | sha512 (H : Words8 64) (countHi countLo : BitVec 64)
  deriving DecidableEq, Repr

/-- Kind `MD` (rule R32). -/
structure Md where
  regs   : MdRegs
  buf    : Bytes
  bufOff : Nat
  deriving DecidableEq, Repr

/-- Bit lengths of SHA-3 (rule R34). -/
inductive Sha3Bits
  | b224 | b256 | b384 | b512
  deriving DecidableEq, Repr

/-- Bit lengths of SHAKE and CSHAKE (rule R34). -/
inductive XofBits
  | b128 | b256
  deriving DecidableEq, Repr

/-- `inst`, `bits`, `N` and `S` of a `SPONGE` object (rule R34): only CSHAKE has the two strings. The
rate is a function of these (rule R253), so it is computed, not stored (log entry 10). -/
inductive SpongeCfg
  | sha3 (bits : Sha3Bits)
  | shake (bits : XofBits)
  | cshake (bits : XofBits) (N S : Bytes)
  deriving DecidableEq, Repr

/-- Kind `SPONGE` (rule R34). -/
structure Sponge where
  cfg         : SpongeCfg
  A           : Lanes
  queue       : Bytes
  bitsInQueue : Nat
  squeezing   : Bool
  deriving DecidableEq, Repr

/-- The immutable fields of a `BLAKE2B` object (rule R35). -/
structure BlakeCfg where
  dlen : Nat
  key  : Bytes
  salt : Option Bytes
  pers : Option Bytes
  deriving DecidableEq, Repr

/-- Kind `BLAKE2B` (rule R35). -/
structure Blake where
  cfg : BlakeCfg
  h   : Words8 64
  t1  : BitVec 64
  t0  : BitVec 64
  buf : Bytes
  pos : Nat
  deriving DecidableEq, Repr

/-- A hash engine object: kind `MD`, `SPONGE` or `BLAKE2B`. -/
inductive Engine
  | md (e : Md)
  | sponge (e : Sponge)
  | blake (e : Blake)
  deriving DecidableEq, Repr

/-- A hash engine's configuration `cfg(e)`, its immutable fields (rule R131). -/
inductive EngineCfg
  | md (alg : MdAlg)
  | sponge (cfg : SpongeCfg)
  | blake (cfg : BlakeCfg)
  deriving DecidableEq, Repr

/-! ### Protocol controllers and contexts -/

/-- Kind `HMAC` (rule R36). -/
structure Hmac where
  E    : Engine
  init : Bool
  key  : Bytes
  ipad : Bytes
  opad : Bytes
  deriving DecidableEq, Repr

/-- The object of a context (rules R30, R36, R37); `empty` is the kind `EMPTY`, which has no object. -/
inductive Obj
  | empty
  | hash (e : Engine)
  | hmac (M : Hmac)
  | hkdf (M : Hmac)
  | pbkdf2 (M : Hmac) (iters : Nat)
  deriving DecidableEq, Repr

/-- A context `(kind, poison, obj)` (rules R30, R31). -/
structure Context where
  obj    : Obj
  poison : Bool
  deriving DecidableEq, Repr

/-! ### Host registers -/

/-- The host registers that hold a value (rule R21). `ID` is a constant, `NCTX` the length of the context
file and `MEMSZ` a field of `State`. -/
structure Regs where
  cmd      : Word
  status   : Word
  err      : Word
  errlog   : Word
  result   : Word
  param0   : Word
  param1   : Word
  srcBase  : Word
  srcSize  : Word
  srcStart : Word
  srcLen   : Word
  dstBase  : Word
  dstSize  : Word
  dstStart : Word
  dstLen   : Word
  keyBase  : Word
  keySize  : Word
  saltBase : Word
  saltSize : Word
  auxBase  : Word
  auxSize  : Word
  nameBase : Word
  nameSize : Word
  deriving DecidableEq, Repr

/-- Every register that is not hardwired resets to 0 (rule R411). -/
def Regs.reset : Regs where
  cmd := 0
  status := 0
  err := 0
  errlog := 0
  result := 0
  param0 := 0
  param1 := 0
  srcBase := 0
  srcSize := 0
  srcStart := 0
  srcLen := 0
  dstBase := 0
  dstSize := 0
  dstStart := 0
  dstLen := 0
  keyBase := 0
  keySize := 0
  saltBase := 0
  saltSize := 0
  auxBase := 0
  auxSize := 0
  nameBase := 0
  nameSize := 0

/-! ### Operand memory -/

/-- Operand memory `OPMEM` (rule R41): the bytes written since the last hardware reset, addresses strictly
rising. An unlisted address holds no known value; what it reads as is the free value of log entry 2, for
which `epoch` (the model's own field) counts the hardware resets. -/
structure Memory where
  epoch : Nat
  cells : List Host.Cell
  deriving DecidableEq, Repr

/-! ### The outside world -/

/-- What the outside world can do (rules R5, R71, R72, R410): the host's accesses to `REG` and `OPMEM`,
with the access width in bytes, and hardware reset. A write to `CMD` issues a command. -/
inductive Event
  | regWrite (offset width : Nat) (value : Word)
  | regRead (offset width : Nat)
  | memWrite (addr width : Nat) (value : Word)
  | memRead (addr width : Nat)
  | hardReset
  deriving DecidableEq, Repr

/-! ### The whole state -/

/-- The state (rule R20). `ctx` is the context file, whose length is the parameter `NCTX`; `memsz` is the
parameter `MEM_BYTES` in its register; `pending` (the model's own field, log entry 3) is what the outside
world does next, first event first. -/
structure State where
  reg     : Regs
  memsz   : Word
  mem     : Memory
  ctx     : List Context
  pending : List Event
  deriving DecidableEq, Repr

/-- A context after hardware reset: `EMPTY`, not poisoned (rule R411). -/
def Context.fresh : Context := { obj := .empty, poison := false }

/-- The state hardware reset leaves in an instance with `nctx` contexts and `memsz` bytes of operand memory,
after `epoch` earlier resets, with `pending` still to come (rules R44, R411). -/
def State.resetWith (nctx : Nat) (memsz : Word) (epoch : Nat) (pending : List Event) : State where
  reg := Regs.reset
  memsz := memsz
  mem := { epoch := epoch, cells := [] }
  ctx := List.replicate nctx Context.fresh
  pending := pending

/-- The machine right after reset, with nothing asked of it yet (log entries 1 to 3). -/
def State.reset : State := State.resetWith Config.instanceNctx Config.instanceMemsz 0 []

/-! ### Errors and stops -/

/-- The error codes a failed command reports (rule R380). They are not stops: the machine goes on. -/
inductive ErrCode
  | invalidParameter | rangeError | stateError | illegalCommand
  deriving DecidableEq, Repr

/-- Stops with a fault. No command raises one (rule R6). -/
inductive Fault
  /-- A host access to an address that does not exist: `OPMEM` at or past `MEM_BYTES` (rule R72; 93 U4), or
  `REG` past its 256 bytes (rule R70). Raised by the host's own access, never by a command. Safe. -/
  | noSuchAddress
  deriving DecidableEq, Repr

/-- Stops without a meaning. No command raises one of its own (rule R6). -/
inductive Refusal
  /-- An instruction the model gives no meaning. There is none left. Safe. -/
  | notModelled (mnemonic : String)
  /-- A host access to `REG` that is not an aligned 32-bit word: "not defined by this spec" (rule R71; 93 U3).
  Raised by the host's own access. Safe. -/
  | undefinedRegAccess
  /-- A host access to `OPMEM` of a width other than 1, 2 or 4 bytes, of which rule R72 speaks not.
  Raised by the host's own access. Safe. -/
  | undefinedMemAccess
  deriving DecidableEq, Repr

end Sys2Proof.Machine
end

