-- ==== Sys2Proof/Machine/Sha.lean ====
section
/-! DEFINITION. The SHA-1, SHA-256 and SHA-512 compression functions: 41_md_sha.md rules R201, R210, R211,
R220 to R222 and R230 to R232. -/

namespace Sys2Proof.Machine

/-- `IV(SHA1)` (rule R201). -/
def ivSha1 : Words5 32 := ⟨0x67452301, 0xEFCDAB89, 0x98BADCFE, 0x10325476, 0xC3D2E1F0⟩

/-- `IV(SHA256)` (rule R201). -/
def ivSha256 : Words8 32 :=
  ⟨0x6A09E667, 0xBB67AE85, 0x3C6EF372, 0xA54FF53A, 0x510E527F, 0x9B05688C, 0x1F83D9AB, 0x5BE0CD19⟩

/-- `IV(SHA512)`, which is BLAKE2b's too (rules R201, R308). -/
def ivSha512 : Words8 64 :=
  ⟨0x6A09E667F3BCC908, 0xBB67AE8584CAA73B, 0x3C6EF372FE94F82B, 0xA54FF53A5F1D36F1,
   0x510E527FADE682D1, 0x9B05688C2B3E6C1F, 0x1F83D9ABFB41BD6B, 0x5BE0CD19137E2179⟩

/-- Wordwise addition, modulo `2^w` (rules R9, R210). -/
def Words5.add {w : Nat} (x y : Words5 w) : Words5 w :=
  ⟨x.h0 + y.h0, x.h1 + y.h1, x.h2 + y.h2, x.h3 + y.h3, x.h4 + y.h4⟩

/-- Wordwise addition, modulo `2^w` (rules R9, R220). -/
def Words8.add {w : Nat} (x y : Words8 w) : Words8 w :=
  ⟨x.h0 + y.h0, x.h1 + y.h1, x.h2 + y.h2, x.h3 + y.h3, x.h4 + y.h4, x.h5 + y.h5, x.h6 + y.h6, x.h7 + y.h7⟩

/-- The words in index order. -/
def Words5.toList {w : Nat} (x : Words5 w) : List (BitVec w) := [x.h0, x.h1, x.h2, x.h3, x.h4]

/-- The words in index order. -/
def Words8.toList {w : Nat} (x : Words8 w) : List (BitVec w) := [x.h0, x.h1, x.h2, x.h3, x.h4, x.h5, x.h6, x.h7]

/-! ### SHA-1 -/

/-- `Ch(x, y, z)`, SHA-2's and SHA-1's (rules R211, R221, R231). SHA-1's is written with `|`, SHA-2's with
`^`, see `chXor`. -/
def chOr {w : Nat} (x y z : BitVec w) : BitVec w := (x &&& y) ||| (~~~x &&& z)

/-- `Parity` (rule R211). -/
def parity {w : Nat} (x y z : BitVec w) : BitVec w := x ^^^ y ^^^ z

/-- SHA-1's `Maj` (rule R211). -/
def majOr {w : Nat} (x y z : BitVec w) : BitVec w := (x &&& y) ||| (x &&& z) ||| (y &&& z)

/-- `f_t` and `K_t` of SHA-1 by sub-round (rule R211). -/
def sha1Round (t : Nat) (x y z : BitVec 32) : BitVec 32 × BitVec 32 :=
  if t < 20 then (chOr x y z, 0x5A827999)
  else if t < 40 then (parity x y z, 0x6ED9EBA1)
  else if t < 60 then (majOr x y z, 0x8F1BBCDC)
  else (parity x y z, 0xCA62C1D6)

/-- The 80-word message schedule (rule R210). -/
def sha1Schedule (block : Bytes) : List (BitVec 32) :=
  (List.range' 16 64).foldl
    (fun W t => W ++ [rotl (W.getD (t - 3) 0 ^^^ W.getD (t - 8) 0 ^^^ W.getD (t - 14) 0 ^^^ W.getD (t - 16) 0) 1])
    (beWords 32 16 block)

/-- One round of SHA-1 on the working registers `(a, b, c, d, e)` (rule R210). -/
def sha1Step (W : List (BitVec 32)) (v : Words5 32) (t : Nat) : Words5 32 :=
  let (f, k) := sha1Round t v.h1 v.h2 v.h3
  let T := rotl v.h0 5 + f + v.h4 + k + W.getD t 0
  ⟨T, v.h0, rotl v.h1 30, v.h2, v.h3⟩

/-- `Compress_SHA1(H, block)` (rule R210). -/
@[irreducible] def compressSha1 (H : Words5 32) (block : Bytes) : Words5 32 :=
  H.add ((List.range 80).foldl (sha1Step (sha1Schedule block)) H)

/-! ### SHA-256 and SHA-512 -/

/-- `Ch` of SHA-2 (rules R221, R231). -/
def chXor {w : Nat} (x y z : BitVec w) : BitVec w := (x &&& y) ^^^ (~~~x &&& z)

/-- `Maj` of SHA-2 (rules R221, R231). -/
def majXor {w : Nat} (x y z : BitVec w) : BitVec w := (x &&& y) ^^^ (x &&& z) ^^^ (y &&& z)

/-- What distinguishes SHA-256's compression from SHA-512's: the four mixing functions and the round
constants (rules R220, R230). -/
structure Sha2 (w : Nat) where
  /-- Σ0 -/
  S0 : BitVec w → BitVec w
  /-- Σ1 -/
  S1 : BitVec w → BitVec w
  /-- σ0 -/
  s0 : BitVec w → BitVec w
  /-- σ1 -/
  s1 : BitVec w → BitVec w
  /-- the round constants -/
  K  : List (BitVec w)

/-- The message schedule, one word for each round constant (rules R220, R230). -/
def Sha2.schedule {w : Nat} (p : Sha2 w) (block : Bytes) : List (BitVec w) :=
  (List.range' 16 (p.K.length - 16)).foldl
    (fun W t => W ++ [p.s1 (W.getD (t - 2) 0) + W.getD (t - 7) 0 + p.s0 (W.getD (t - 15) 0) + W.getD (t - 16) 0])
    (beWords w 16 block)

/-- One round on the working registers `(a, b, c, d, e, f, g, h)` (rules R220, R230). -/
def Sha2.step {w : Nat} (p : Sha2 w) (W : List (BitVec w)) (v : Words8 w) (t : Nat) : Words8 w :=
  let T1 := v.h7 + p.S1 v.h4 + chXor v.h4 v.h5 v.h6 + p.K.getD t 0 + W.getD t 0
  let T2 := p.S0 v.h0 + majXor v.h0 v.h1 v.h2
  ⟨T1 + T2, v.h0, v.h1, v.h2, v.h3 + T1, v.h4, v.h5, v.h6⟩

/-- `Compress_SHA256` and `Compress_SHA512` (rules R220, R230). -/
@[irreducible] def Sha2.compress {w : Nat} (p : Sha2 w) (H : Words8 w) (block : Bytes) : Words8 w :=
  H.add ((List.range p.K.length).foldl (p.step (p.schedule block)) H)

/-- `K256` (rule R222). -/
def k256 : List (BitVec 32) :=
  [0x428A2F98, 0x71374491, 0xB5C0FBCF, 0xE9B5DBA5, 0x3956C25B, 0x59F111F1, 0x923F82A4, 0xAB1C5ED5] ++
  [0xD807AA98, 0x12835B01, 0x243185BE, 0x550C7DC3, 0x72BE5D74, 0x80DEB1FE, 0x9BDC06A7, 0xC19BF174] ++
  [0xE49B69C1, 0xEFBE4786, 0x0FC19DC6, 0x240CA1CC, 0x2DE92C6F, 0x4A7484AA, 0x5CB0A9DC, 0x76F988DA] ++
  [0x983E5152, 0xA831C66D, 0xB00327C8, 0xBF597FC7, 0xC6E00BF3, 0xD5A79147, 0x06CA6351, 0x14292967] ++
  [0x27B70A85, 0x2E1B2138, 0x4D2C6DFC, 0x53380D13, 0x650A7354, 0x766A0ABB, 0x81C2C92E, 0x92722C85] ++
  [0xA2BFE8A1, 0xA81A664B, 0xC24B8B70, 0xC76C51A3, 0xD192E819, 0xD6990624, 0xF40E3585, 0x106AA070] ++
  [0x19A4C116, 0x1E376C08, 0x2748774C, 0x34B0BCB5, 0x391C0CB3, 0x4ED8AA4A, 0x5B9CCA4F, 0x682E6FF3] ++
  [0x748F82EE, 0x78A5636F, 0x84C87814, 0x8CC70208, 0x90BEFFFA, 0xA4506CEB, 0xBEF9A3F7, 0xC67178F2]

/-- `K512` (rule R232). -/
def k512 : List (BitVec 64) :=
  [0x428A2F98D728AE22, 0x7137449123EF65CD, 0xB5C0FBCFEC4D3B2F, 0xE9B5DBA58189DBBC] ++
  [0x3956C25BF348B538, 0x59F111F1B605D019, 0x923F82A4AF194F9B, 0xAB1C5ED5DA6D8118] ++
  [0xD807AA98A3030242, 0x12835B0145706FBE, 0x243185BE4EE4B28C, 0x550C7DC3D5FFB4E2] ++
  [0x72BE5D74F27B896F, 0x80DEB1FE3B1696B1, 0x9BDC06A725C71235, 0xC19BF174CF692694] ++
  [0xE49B69C19EF14AD2, 0xEFBE4786384F25E3, 0x0FC19DC68B8CD5B5, 0x240CA1CC77AC9C65] ++
  [0x2DE92C6F592B0275, 0x4A7484AA6EA6E483, 0x5CB0A9DCBD41FBD4, 0x76F988DA831153B5] ++
  [0x983E5152EE66DFAB, 0xA831C66D2DB43210, 0xB00327C898FB213F, 0xBF597FC7BEEF0EE4] ++
  [0xC6E00BF33DA88FC2, 0xD5A79147930AA725, 0x06CA6351E003826F, 0x142929670A0E6E70] ++
  [0x27B70A8546D22FFC, 0x2E1B21385C26C926, 0x4D2C6DFC5AC42AED, 0x53380D139D95B3DF] ++
  [0x650A73548BAF63DE, 0x766A0ABB3C77B2A8, 0x81C2C92E47EDAEE6, 0x92722C851482353B] ++
  [0xA2BFE8A14CF10364, 0xA81A664BBC423001, 0xC24B8B70D0F89791, 0xC76C51A30654BE30] ++
  [0xD192E819D6EF5218, 0xD69906245565A910, 0xF40E35855771202A, 0x106AA07032BBD1B8] ++
  [0x19A4C116B8D2D0C8, 0x1E376C085141AB53, 0x2748774CDF8EEB99, 0x34B0BCB5E19B48A8] ++
  [0x391C0CB3C5C95A63, 0x4ED8AA4AE3418ACB, 0x5B9CCA4F7763E373, 0x682E6FF3D6B2B8A3] ++
  [0x748F82EE5DEFB2FC, 0x78A5636F43172F60, 0x84C87814A1F0AB72, 0x8CC702081A6439EC] ++
  [0x90BEFFFA23631E28, 0xA4506CEBDE82BDE9, 0xBEF9A3F7B2C67915, 0xC67178F2E372532B] ++
  [0xCA273ECEEA26619C, 0xD186B8C721C0C207, 0xEADA7DD6CDE0EB1E, 0xF57D4F7FEE6ED178] ++
  [0x06F067AA72176FBA, 0x0A637DC5A2C898A6, 0x113F9804BEF90DAE, 0x1B710B35131C471B] ++
  [0x28DB77F523047D84, 0x32CAAB7B40C72493, 0x3C9EBE0A15C9BEBC, 0x431D67C49C100D4C] ++
  [0x4CC5D4BECB3E42B6, 0x597F299CFC657E2A, 0x5FCB6FAB3AD6FAEC, 0x6C44198C4A475817]

/-- SHA-256's functions and constants (rules R221, R222). -/
def sha256Fns : Sha2 32 where
  S0 x := rotr x 2 ^^^ rotr x 13 ^^^ rotr x 22
  S1 x := rotr x 6 ^^^ rotr x 11 ^^^ rotr x 25
  s0 x := rotr x 7 ^^^ rotr x 18 ^^^ shr x 3
  s1 x := rotr x 17 ^^^ rotr x 19 ^^^ shr x 10
  K := k256

/-- SHA-512's functions and constants (rules R231, R232). -/
def sha512Fns : Sha2 64 where
  S0 x := rotr x 28 ^^^ rotr x 34 ^^^ rotr x 39
  S1 x := rotr x 14 ^^^ rotr x 18 ^^^ rotr x 41
  s0 x := rotr x 1 ^^^ rotr x 8 ^^^ shr x 7
  s1 x := rotr x 19 ^^^ rotr x 61 ^^^ shr x 6
  K := k512

end Sys2Proof.Machine
end

