-- ==== Sys2Proof/Machine/BlakeEngine.lean ====
section
/-! DEFINITION. BLAKE2b: 43_blake2b.md rules R300 to R309. -/

namespace Sys2Proof.Machine

/-- `sigma[0..9][0..15]` (rule R307). -/
def blakeSigma : List (List Nat) :=
  [[0, 1, 2, 3, 4, 5, 6, 7, 8, 9, 10, 11, 12, 13, 14, 15],
   [14, 10, 4, 8, 9, 15, 13, 6, 1, 12, 0, 2, 11, 7, 5, 3],
   [11, 8, 12, 0, 5, 2, 15, 13, 10, 14, 3, 6, 7, 1, 9, 4],
   [7, 9, 3, 1, 13, 12, 11, 14, 2, 6, 5, 10, 4, 0, 15, 8],
   [9, 0, 5, 7, 2, 4, 10, 15, 14, 1, 11, 12, 6, 8, 3, 13]] ++
  [[2, 12, 6, 10, 0, 11, 8, 3, 4, 13, 7, 5, 15, 14, 1, 9],
   [12, 5, 1, 15, 14, 13, 4, 10, 0, 7, 6, 3, 9, 2, 8, 11],
   [13, 11, 7, 14, 12, 1, 3, 9, 5, 0, 15, 4, 8, 6, 2, 10],
   [6, 15, 14, 9, 11, 3, 0, 8, 12, 2, 13, 7, 1, 4, 10, 5],
   [10, 2, 8, 4, 7, 6, 1, 5, 15, 11, 9, 14, 3, 12, 13, 0]]

/-- `G(v, a, b, c, d, x, y)` on the work vector `v[0..15]` (rule R306). -/
def blakeG (v : List Lane) (a b c d : Nat) (x y : Lane) : List Lane :=
  let va := v.getD a 0 + v.getD b 0 + x
  let vd := rotr (v.getD d 0 ^^^ va) 32
  let vc := v.getD c 0 + vd
  let vb := rotr (v.getD b 0 ^^^ vc) 24
  let va := va + vb + y
  let vd := rotr (vd ^^^ va) 16
  let vc := vc + vd
  let vb := rotr (vb ^^^ vc) 63
  (((v.set a va).set b vb).set c vc).set d vd

/-- Round `r`: columns, then diagonals (rule R304). -/
def blakeRound (m : List Lane) (v : List Lane) (r : Nat) : List Lane :=
  let s := blakeSigma.getD (r % 10) []
  let w := fun i => m.getD (s.getD i 0) 0
  let v := blakeG v 0 4 8 12 (w 0) (w 1)
  let v := blakeG v 1 5 9 13 (w 2) (w 3)
  let v := blakeG v 2 6 10 14 (w 4) (w 5)
  let v := blakeG v 3 7 11 15 (w 6) (w 7)
  let v := blakeG v 0 5 10 15 (w 8) (w 9)
  let v := blakeG v 1 6 11 12 (w 10) (w 11)
  let v := blakeG v 2 7 8 13 (w 12) (w 13)
  blakeG v 3 4 9 14 (w 14) (w 15)

/-- `F(h, block, t, last)` with `t = (t1, t0)` (rule R304). -/
@[irreducible] def blakeF (h : Words8 64) (block : Bytes) (t1 t0 : Lane) (last : Bool) : Words8 64 :=
  let m := (List.range 16).map (leLane block)
  let iv := ivSha512
  let flag : Lane := if last then 0xFFFFFFFFFFFFFFFF else 0
  let v0 := h.toList ++ [iv.h0, iv.h1, iv.h2, iv.h3, iv.h4 ^^^ t0, iv.h5 ^^^ t1, iv.h6 ^^^ flag, iv.h7]
  let v := (List.range 12).foldl (blakeRound m) v0
  let out := fun (x : Lane) i => x ^^^ v.getD i 0 ^^^ v.getD (i + 8) 0
  ⟨out h.h0 0, out h.h1 1, out h.h2 2, out h.h3 3, out h.h4 4, out h.h5 5, out h.h6 6, out h.h7 7⟩

/-- The block length of BLAKE2b (rule R300). -/
def blakeBlockLen : Nat := 128

/-- `t` increased by `n`, modulo `2^128` (rule R302). -/
def Blake.advance (e : Blake) (n : Nat) : Blake :=
  let t : BitVec 128 := (e.t1 ++ e.t0) + BitVec.ofNat 128 n
  { e with t1 := t.extractLsb' 64 64, t0 := t.extractLsb' 0 64 }

/-- The initial chaining value: the IV, the parameter word, the salt and the personalization (rule R301). -/
def BlakeCfg.initial (cfg : BlakeCfg) : Words8 64 :=
  let p : Lane := 0x01010000 ||| BitVec.ofNat 64 cfg.key.length <<< 8 ||| BitVec.ofNat 64 cfg.dlen
  let salt := cfg.salt.getD (zeros 16)
  let pers := cfg.pers.getD (zeros 16)
  let iv := ivSha512
  { iv with
    h0 := iv.h0 ^^^ p
    h4 := iv.h4 ^^^ leLane salt 0
    h5 := iv.h5 ^^^ leLane salt 1
    h6 := iv.h6 ^^^ leLane pers 0
    h7 := iv.h7 ^^^ leLane pers 1 }

/-- `Fresh(cfg)`: with a key, the zero-padded key block waits in the buffer (rules R301, R309). -/
def Blake.fresh (cfg : BlakeCfg) : Blake where
  cfg := cfg
  h := cfg.initial
  t1 := 0
  t0 := 0
  buf := cfg.key ++ zeros (blakeBlockLen - cfg.key.length)
  pos := if cfg.key.length > 0 then blakeBlockLen else 0

/-- A full buffer is compressed, unflagged, when another byte arrives (rule R303). -/
def Blake.flush (e : Blake) : Blake :=
  if e.pos = blakeBlockLen then
    let e := e.advance blakeBlockLen
    { e with h := blakeF e.h e.buf e.t1 e.t0 false, buf := zeros blakeBlockLen, pos := 0 }
  else e

/-- `Absorb(e, [b])`, lazy (rule R303). -/
def Blake.absorbByte (e : Blake) (b : Byte) : Blake :=
  let e := e.flush
  { e with buf := e.buf.set e.pos b, pos := e.pos + 1 }

/-- `Absorb(e, s)`, byte-serial (rule R132). -/
def Blake.absorb (e : Blake) (s : Bytes) : Blake := s.foldl Blake.absorbByte e

/-- `LE_8(h[0]) ++ … ++ LE_8(h[7])` (rules R78, R305). -/
def blakeOutput (h : Words8 64) : Bytes := h.toList.flatMap fun x => leBytes 8 x.toNat

/-- `Finish(e)` (rule R305). -/
def Blake.finish (e : Blake) : Bytes × Blake :=
  let e' := e.advance e.pos
  ((blakeOutput (blakeF e'.h e'.buf e'.t1 e'.t0 true)).take e.cfg.dlen, Blake.fresh e.cfg)

end Sys2Proof.Machine
end

