-- ==== Sys2Proof/Machine/MdEngine.lean ====
section
/-! DEFINITION. The Merkle–Damgård engine operations `Fresh`, `Absorb` and `Finish`: 41_md_sha.md rules R200,
R202 to R206. -/

namespace Sys2Proof.Machine

/-- `blockLen` (rule R200). -/
def MdAlg.blockLen : MdAlg → Nat
  | .sha1 => 64
  | .sha256 => 64
  | .sha512 => 128

/-- `lenBytes`, the width of the length field (rule R200). -/
def MdAlg.lenBytes : MdAlg → Nat
  | .sha1 => 8
  | .sha256 => 8
  | .sha512 => 16

/-- `hashLen` (rule R200). -/
def MdAlg.hashLen : MdAlg → Nat
  | .sha1 => 20
  | .sha256 => 32
  | .sha512 => 64

/-- The algorithm of an `MD` object (rule R32 `alg`). -/
def MdRegs.alg : MdRegs → MdAlg
  | .sha1 .. => .sha1
  | .sha256 .. => .sha256
  | .sha512 .. => .sha512

/-- `IV(alg)` with a zero byte count (rules R201, R202). -/
def MdRegs.initial : MdAlg → MdRegs
  | .sha1 => .sha1 ivSha1 0
  | .sha256 => .sha256 ivSha256 0
  | .sha512 => .sha512 ivSha512 0 0

/-- One compression of `H` (rules R210, R220, R230). -/
def MdRegs.compress (block : Bytes) : MdRegs → MdRegs
  | .sha1 H n => .sha1 (compressSha1 H block) n
  | .sha256 H n => .sha256 (Sha2.compress sha256Fns H block) n
  | .sha512 H hi lo => .sha512 (Sha2.compress sha512Fns H block) hi lo

/-- The byte counter plus one: one wrapping 64-bit word, or two with a carry (rule R204). -/
def MdRegs.count : MdRegs → MdRegs
  | .sha1 H n => .sha1 H (n + 1)
  | .sha256 H n => .sha256 H (n + 1)
  | .sha512 H hi lo => .sha512 H (if lo + 1 = 0 then hi + 1 else hi) (lo + 1)

/-- `byteCount` as a number (rule R204). -/
def MdRegs.byteCount : MdRegs → Nat
  | .sha1 _ n => n.toNat
  | .sha256 _ n => n.toNat
  | .sha512 _ hi lo => (hi ++ lo).toNat

/-- `Digest_alg(H)` (rule R206). -/
def MdRegs.digest : MdRegs → Bytes
  | .sha1 H _ => H.toList.flatMap fun x => beBytes 4 x.toNat
  | .sha256 H _ => H.toList.flatMap fun x => beBytes 4 x.toNat
  | .sha512 H _ _ => H.toList.flatMap fun x => beBytes 8 x.toNat

/-- The algorithm of an `MD` object. -/
def Md.alg (e : Md) : MdAlg := e.regs.alg

/-- `Fresh(alg)` (rule R202). -/
def Md.fresh (alg : MdAlg) : Md where
  regs := MdRegs.initial alg
  buf := zeros alg.blockLen
  bufOff := 0

/-- `Push(e, b)`: eager compression when the buffer becomes full (rule R203). -/
def Md.push (e : Md) (b : Byte) : Md :=
  let buf := e.buf.set e.bufOff b
  if e.bufOff + 1 = e.alg.blockLen then
    { regs := e.regs.compress buf, buf := zeros e.alg.blockLen, bufOff := 0 }
  else
    { e with buf := buf, bufOff := e.bufOff + 1 }

/-- `Absorb(e, [b])`: `Push`, then the byte count (rule R203). -/
def Md.absorbByte (e : Md) (b : Byte) : Md :=
  let e := e.push b
  { e with regs := e.regs.count }

/-- `Absorb(e, s)`, byte-serial (rule R132). -/
def Md.absorb (e : Md) (s : Bytes) : Md := s.foldl Md.absorbByte e

/-- `k`, the number of zero bytes of the padding of an `L`-byte message (rule R205). -/
def padZeros (alg : MdAlg) (L : Nat) : Nat :=
  (2 * alg.blockLen - alg.lenBytes - 1 - L % alg.blockLen) % alg.blockLen

/-- The padding of an `L`-byte message: `0x80`, zeros, and the bit length reduced to the width of its field
(rules R204, R205). -/
def mdPad (alg : MdAlg) (L : Nat) : Bytes :=
  [0x80] ++ zeros (padZeros alg L) ++ beBytes alg.lenBytes (8 * L % 2 ^ (8 * alg.lenBytes))

/-- `Finish(e)`: push the padding, uncounted; the digest and the fresh object (rule R205). -/
def Md.finish (e : Md) : Bytes × Md :=
  (((mdPad e.alg e.regs.byteCount).foldl Md.push e).regs.digest, Md.fresh e.alg)

end Sys2Proof.Machine
end

