-- ==== Sys2Proof/Machine/Keccak.lean ====
section
/-! DEFINITION. The permutation Keccak-f[1600]: 42_sponge_keccak.md rules R251 and R257 to R260. -/

namespace Sys2Proof.Machine

/-- Lane `A[x + 5y]`, indices modulo 5 (rules R251, R257). -/
def lane (A : Lanes) (x y : Nat) : Lane := A.getD (x % 5 + 5 * (y % 5)) 0

/-- The state whose lane `(x, y)` is `f x y`. -/
def lanesOf (f : Nat → Nat → Lane) : Lanes := Vector.ofFn fun i => f (i.val % 5) (i.val / 5)

/-- The ρ rotation offsets, row `y` then column `x` (rule R258). -/
def rhoOffsets : List (List Nat) :=
  [[0, 1, 62, 28, 27], [36, 44, 6, 55, 20], [3, 10, 43, 25, 39], [41, 45, 15, 21, 8], [18, 2, 61, 56, 14]]

/-- `r[x][y]` (rule R258). -/
def rhoOffset (x y : Nat) : Nat := (rhoOffsets.getD y []).getD x 0

/-- `RC[0..23]` (rule R260). -/
def roundConstants : List Lane :=
  [0x0000000000000001, 0x0000000000008082, 0x800000000000808A, 0x8000000080008000,
   0x000000000000808B, 0x0000000080000001, 0x8000000080008081, 0x8000000000008009] ++
  [0x000000000000008A, 0x0000000000000088, 0x0000000080008009, 0x000000008000000A,
   0x000000008000808B, 0x800000000000008B, 0x8000000000008089, 0x8000000000008003] ++
  [0x8000000000008002, 0x8000000000000080, 0x000000000000800A, 0x800000008000000A,
   0x8000000080008081, 0x8000000000008080, 0x0000000080000001, 0x8000000080008008]

/-- The column parities `C[0..4]` of θ (rule R257). -/
def columnParity (A : Lanes) : Vector Lane 5 :=
  Vector.ofFn fun x => lane A x.val 0 ^^^ lane A x.val 1 ^^^ lane A x.val 2 ^^^ lane A x.val 3 ^^^ lane A x.val 4

/-- `D[x]` of θ from the column parities (rule R257). -/
def thetaD (C : Vector Lane 5) : Vector Lane 5 :=
  Vector.ofFn fun x => C.getD ((x.val + 4) % 5) 0 ^^^ rotl (C.getD ((x.val + 1) % 5) 0) 1

/-- θ (rule R257). -/
def theta (A : Lanes) : Lanes :=
  let D := thetaD (columnParity A)
  lanesOf fun x y => lane A x y ^^^ D.getD x 0

/-- ρ and π in one pass: source lane `(x, y)`, rotated, goes to index `y + 5*((2x+3y) mod 5)`. So the lane that
arrives at `(X, Y)` is the one with `y = X` and `2x + 3y = Y` modulo 5, that is `x = X + 3Y` modulo 5
(rules R257, R259). -/
def rhoPi (A : Lanes) : Lanes :=
  lanesOf fun X Y => rotl (lane A (X + 3 * Y) X) (rhoOffset ((X + 3 * Y) % 5) X)

/-- χ, every lane from the lanes before χ (rules R257, R259). -/
def chi (B : Lanes) : Lanes :=
  lanesOf fun x y => lane B x y ^^^ (~~~lane B (x + 1) y &&& lane B (x + 2) y)

/-- ι: lane `A[0]` only (rules R257, R259). -/
def iota (rc : Lane) (A : Lanes) : Lanes := A.setIfInBounds 0 (lane A 0 0 ^^^ rc)

/-- One round: θ, ρ, π, χ, ι in that order (rule R257). -/
def keccakRound (A : Lanes) (rc : Lane) : Lanes := iota rc (chi (rhoPi (theta A)))

/-- `KeccakF(A)`, 24 rounds (rule R257). -/
@[irreducible] def keccakF (A : Lanes) : Lanes := roundConstants.foldl keccakRound A

/-- Every lane zero. -/
def zeroLanes : Lanes := Vector.replicate 25 0

end Sys2Proof.Machine
end

