-- ==== Sys2Proof/Machine/SpongeEngine.lean ====
section
/-! DEFINITION. The sponge engine operations `Fresh`, `Absorb`, `Finish` and `Squeeze`: 42_sponge_keccak.md
rules R253 to R256, R261, R262 and R264 to R267. -/

namespace Sys2Proof.Machine

/-- `bits` of a SHA-3 (rule R34). -/
def Sha3Bits.val : Sha3Bits → Nat
  | .b224 => 224
  | .b256 => 256
  | .b384 => 384
  | .b512 => 512

/-- `bits` of a SHAKE or CSHAKE (rule R34). -/
def XofBits.val : XofBits → Nat
  | .b128 => 128
  | .b256 => 256

/-- `bits` (rule R34). -/
def SpongeCfg.bits : SpongeCfg → Nat
  | .sha3 b => b.val
  | .shake b => b.val
  | .cshake b _ _ => b.val

/-- Is the instance an extendable-output function (rule R107 `XOF`)? -/
def SpongeCfg.isXof : SpongeCfg → Bool
  | .sha3 _ => false
  | .shake _ => true
  | .cshake .. => true

/-- The rate table: `rate = 1600 - 2*bits` (rule R253). -/
def rateOf (bits : Nat) : Nat := 1600 - 2 * bits

/-- `rate`, bits absorbed or squeezed per permutation (rule R253). -/
def SpongeCfg.rate (cfg : SpongeCfg) : Nat := rateOf cfg.bits

/-- `rate/8`, the bytes of the queue, which is `blockLen` (rules R131, R253). -/
def SpongeCfg.rateBytes (cfg : SpongeCfg) : Nat := cfg.rate / 8

/-- `hashLen`: `bits/8` for SHA-3, the default output length `bits/4` for an XOF (rules R7, R265). -/
def SpongeCfg.hashLen (cfg : SpongeCfg) : Nat := if cfg.isXof then cfg.bits / 4 else cfg.bits / 8

/-- Is it a CSHAKE with a non-empty `N` or `S` (rules R254, R261, R267)? -/
def SpongeCfg.customised : SpongeCfg → Bool
  | .sha3 _ => false
  | .shake _ => false
  | .cshake _ N S => !(N.isEmpty && S.isEmpty)

/-- The domain-separation suffix `(v, d)` (rule R261). -/
def SpongeCfg.suffix (cfg : SpongeCfg) : Byte × Nat :=
  if cfg.customised then (0x00, 2) else if cfg.isXof then (0x0F, 4) else (0x02, 2)

/-- `left_encode(x)` (rule R266). -/
def leftEncode (x : Nat) : Bytes :=
  let n := Nat.log2 x / 8 + 1
  BitVec.ofNat 8 n :: beBytes n x

/-- `encode_string(s)`, the length in bits (rule R266). -/
def encodeString (s : Bytes) : Bytes := leftEncode (8 * s.length) ++ s

/-- `bytepad(X, w)` (rule R266). -/
def bytepad (X : Bytes) (w : Nat) : Bytes :=
  let z := leftEncode w ++ X
  z ++ zeros ((w - z.length % w) % w)

/-- CSHAKE's prefix (rule R267). -/
def SpongeCfg.prefixBytes (cfg : SpongeCfg) : Bytes :=
  match cfg with
  | .sha3 _ => []
  | .shake _ => []
  | .cshake _ N S => if cfg.customised then bytepad (encodeString N ++ encodeString S) cfg.rateBytes else []

/-- Exclusive-or a block of whole lanes into the first lanes of the state; the capacity lanes are not
touched (rule R256). -/
def xorBlock (A : Lanes) (block : Bytes) (lanes : Nat) : Lanes :=
  Vector.ofFn fun i => if i.val < lanes then A.getD i.val 0 ^^^ leLane block i.val else A.getD i.val 0

/-- `XorQueueAndPermute(e)` (rule R256). -/
def Sponge.xorQueueAndPermute (e : Sponge) : Sponge :=
  { e with A := keccakF (xorBlock e.A e.queue (e.cfg.rate / 64)) }

/-- `Absorb(e, [b])`, eager (rule R255). Required: not squeezing. -/
def Sponge.absorbByte (e : Sponge) (b : Byte) : Sponge :=
  let e := { e with queue := e.queue.set (e.bitsInQueue / 8) b, bitsInQueue := e.bitsInQueue + 8 }
  if e.bitsInQueue = e.cfg.rate then
    { e.xorQueueAndPermute with queue := zeros e.cfg.rateBytes, bitsInQueue := 0 }
  else e

/-- `Absorb(e, s)`, byte-serial (rule R132). -/
def Sponge.absorb (e : Sponge) (s : Bytes) : Sponge := s.foldl Sponge.absorbByte e

/-- `Fresh(cfg)`: the zero state, with CSHAKE's prefix absorbed (rule R254). -/
def Sponge.fresh (cfg : SpongeCfg) : Sponge :=
  Sponge.absorb
    { cfg := cfg, A := zeroLanes, queue := zeros cfg.rateBytes, bitsInQueue := 0, squeezing := false }
    cfg.prefixBytes

/-- The first `rate/8` bytes of the state, in order (rules R77, R262). -/
def stateBytes (A : Lanes) (lanes : Nat) : Bytes :=
  (List.range lanes).flatMap fun j => leBytes 8 (A.getD j 0).toNat

/-- `Extract(e)`: the rate bytes of the state become the queue of unread output (rule R262). -/
def Sponge.extract (e : Sponge) : Sponge :=
  { e with queue := stateBytes e.A (e.cfg.rate / 64), bitsInQueue := e.cfg.rate }

/-- `PadAndSwitch(e)` (rule R262). Required: not squeezing. -/
def Sponge.padAndSwitch (e : Sponge) : Sponge :=
  let (v, d) := e.cfg.suffix
  let queue := e.queue.set (e.bitsInQueue / 8) (v &&& BitVec.ofNat 8 (2 ^ d - 1))
  let bitsInQueue := e.bitsInQueue + d
  let queue := setBit (setBit queue bitsInQueue) (e.cfg.rate - 1)
  { { e with queue := queue, bitsInQueue := bitsInQueue }.xorQueueAndPermute with squeezing := true }.extract

/-- The next block of output, when none is left (rule R264). -/
def Sponge.refill (e : Sponge) : Sponge :=
  if e.bitsInQueue = 0 then { e with A := keccakF e.A }.extract else e

/-- `n` bytes from a squeezing object (the loop of rule R264). -/
def Sponge.squeezeLoop : Nat → Sponge → Bytes × Sponge
  | 0, e => ([], e)
  | n + 1, e =>
    let e := e.refill
    let b := e.queue.getD ((e.cfg.rate - e.bitsInQueue) / 8) 0
    let (out, e') := Sponge.squeezeLoop n { e with bitsInQueue := e.bitsInQueue - 8 }
    (b :: out, e')

/-- `Squeeze(e, n)` (rule R264): the first squeeze of a session pads and switches the phase, whatever `n`. -/
def Sponge.squeeze (e : Sponge) (n : Nat) : Bytes × Sponge :=
  Sponge.squeezeLoop n (if e.squeezing then e else e.padAndSwitch)

/-- `Finish(e)` (rule R265). -/
def Sponge.finish (e : Sponge) : Bytes × Sponge :=
  ((e.squeeze e.cfg.hashLen).1, Sponge.fresh e.cfg)

end Sys2Proof.Machine
end

