-- ==== Sys2Proof/Machine/Engine.lean ====
section
/-! DEFINITION. The hash engine contract: the abstract operations of 40_engine_contract.md rules R130 to R135,
each of which asks the engine's own family. -/

namespace Sys2Proof.Machine

/-- `cfg(e)` (rule R131). -/
def Engine.cfg : Engine → EngineCfg
  | .md e => .md e.alg
  | .sponge e => .sponge e.cfg
  | .blake e => .blake e.cfg

/-- `Fresh(cfg)` (rules R131, R202, R254, R301). -/
def Engine.fresh : EngineCfg → Engine
  | .md alg => .md (Md.fresh alg)
  | .sponge cfg => .sponge (Sponge.fresh cfg)
  | .blake cfg => .blake (Blake.fresh cfg)

/-- `Absorb(e, s)` (rules R131, R132). -/
def Engine.absorb (s : Bytes) : Engine → Engine
  | .md e => .md (e.absorb s)
  | .sponge e => .sponge (e.absorb s)
  | .blake e => .blake (e.absorb s)

/-- `Finish(e)`: the digest and the fresh object (rule R131). -/
def Engine.finish : Engine → Bytes × Engine
  | .md e => (e.finish.1, .md e.finish.2)
  | .sponge e => (e.finish.1, .sponge e.finish.2)
  | .blake e => (e.finish.1, .blake e.finish.2)

/-- `hashLen` (rule R131). -/
def EngineCfg.hashLen : EngineCfg → Nat
  | .md alg => alg.hashLen
  | .sponge cfg => cfg.hashLen
  | .blake cfg => cfg.dlen

/-- `blockLen` (rule R131). -/
def EngineCfg.blockLen : EngineCfg → Nat
  | .md alg => alg.blockLen
  | .sponge cfg => cfg.rateBytes
  | .blake _ => blakeBlockLen

/-- `hashLen(e)` (rule R131). -/
def Engine.hashLen (e : Engine) : Nat := e.cfg.hashLen

/-- `blockLen(e)` (rule R131). -/
def Engine.blockLen (e : Engine) : Nat := e.cfg.blockLen

/-- `Hash_cfg(m)` (rule R133). -/
def hashOf (cfg : EngineCfg) (m : Bytes) : Bytes := ((Engine.fresh cfg).absorb m).finish.1

/-- The first `n` bytes of `Z_cfg(m)` (rules R134, R160). -/
def xofOf (cfg : SpongeCfg) (m : Bytes) (n : Nat) : Bytes := (((Sponge.fresh cfg).absorb m).squeeze n).1

/-- Is the engine a sponge in its squeezing phase (rule R39 (c))? -/
def Engine.squeezing : Engine → Bool
  | .md _ => false
  | .sponge e => e.squeezing
  | .blake _ => false

/-- `GETALG`'s number `id | variant << 8` for a hash engine (rule R143). -/
def EngineCfg.algId : EngineCfg → Nat
  | .md .sha1 => 1
  | .md .sha256 => 2
  | .md .sha512 => 3
  | .sponge (.sha3 b) => 4 ||| b.val <<< 8
  | .sponge (.shake b) => 5 ||| b.val <<< 8
  | .sponge (.cshake b _ _) => 6 ||| b.val <<< 8
  | .blake cfg => 7 ||| (8 * cfg.dlen) <<< 8

end Sys2Proof.Machine
end

