-- ==== Sys2Proof/Machine/HmacController.lean ====
section
/-! DEFINITION. The HMAC protocol controller, written in terms of the engine contract only: 44_hmac.md rules
R330 and R332 to R338. -/

namespace Sys2Proof.Machine

/-- `K0`: a key longer than a block is replaced by its digest (rule R330). -/
def hmacKey0 (cfg : EngineCfg) (K : Bytes) : Bytes := if K.length > cfg.blockLen then hashOf cfg K else K

/-- `Kpad`: `K0` zero-padded to a block (rule R330). -/
def hmacKpad (cfg : EngineCfg) (K : Bytes) : Bytes :=
  hmacKey0 cfg K ++ zeros (cfg.blockLen - (hmacKey0 cfg K).length)

/-- `ipad` of a key (rule R330). -/
def hmacIpad (cfg : EngineCfg) (K : Bytes) : Bytes := xorByte 0x36 (hmacKpad cfg K)

/-- `opad` of a key (rule R330). -/
def hmacOpad (cfg : EngineCfg) (K : Bytes) : Bytes := xorByte 0x5C (hmacKpad cfg K)

/-- The configuration of the owned engine. -/
def Hmac.cfg (M : Hmac) : EngineCfg := M.E.cfg

/-- `hashLen(M)` (rule R336). -/
def Hmac.hashLen (M : Hmac) : Nat := M.E.hashLen

/-- `blockLen(M)` (rule R336). -/
def Hmac.blockLen (M : Hmac) : Nat := M.E.blockLen

/-- An uninitialised HMAC over a fresh engine (rule R332). -/
def Hmac.wrap (cfg : EngineCfg) : Hmac where
  E := Engine.fresh cfg
  init := false
  key := []
  ipad := zeros cfg.blockLen
  opad := zeros cfg.blockLen

/-- `initialize(key)`: new key and pads, the engine primed with the inner pad (rule R333). -/
def Hmac.initialize (K : Bytes) (M : Hmac) : Hmac where
  E := (Engine.fresh M.cfg).absorb (hmacIpad M.cfg K)
  init := true
  key := K
  ipad := hmacIpad M.cfg K
  opad := hmacOpad M.cfg K

/-- `Absorb` on an initialised HMAC (rule R334). -/
def Hmac.absorb (s : Bytes) (M : Hmac) : Hmac := { M with E := M.E.absorb s }

/-- `Finish` on an initialised HMAC: inner digest, outer digest, re-primed (rule R335). -/
def Hmac.finish (M : Hmac) : Bytes × Hmac :=
  let (inner, E1) := M.E.finish
  let (mac, E3) := (E1.absorb (M.opad ++ inner)).finish
  (mac, { M with E := E3.absorb M.ipad })

/-- `Fresh'(M)`: the session is discarded, the key kept (rule R337). `FreshCopy(M)` is the same value: it
copies `init`, `key` and the pads over a fresh engine primed alike. -/
def Hmac.refresh (M : Hmac) : Hmac :=
  { M with E := if M.init then (Engine.fresh M.cfg).absorb M.ipad else Engine.fresh M.cfg }

/-- `computeHash(key, data)`: initialise, absorb, finish (rule R338). -/
def Hmac.compute (K m : Bytes) (M : Hmac) : Bytes × Hmac := ((M.initialize K).absorb m).finish

end Sys2Proof.Machine
end

