-- ==== Sys2Proof/Machine/KdfController.lean ====
section
/-! DEFINITION. The HKDF and PBKDF2 protocol controllers, which drive the owned HMAC through its contract and
leave it as 45_kdf.md rule R358 says: rules R351, R352, R362, R364 and R365. -/

namespace Sys2Proof.Machine

/-- `Extract(salt?, ikm)`: an omitted salt is as many zeros as the input has bytes (rule R351). -/
def hkdfExtract (salt : Option Bytes) (ikm : Bytes) (M : Hmac) : Bytes × Hmac :=
  M.compute (salt.getD (zeros ikm.length)) ikm

/-- Blocks `T(i)`, `T(i+1)`, … of the expansion, `n` of them, after `T(i-1) = T` (rule R352). -/
def hkdfBlocks (prk info : Bytes) : Nat → Nat → Bytes → Hmac → Bytes × Hmac
  | 0, _, _, M => ([], M)
  | n + 1, i, T, M =>
    let (T', M1) := M.compute prk (T ++ info ++ [BitVec.ofNat 8 i])
    let (rest, M2) := hkdfBlocks prk info n (i + 1) T' M1
    (T' ++ rest, M2)

/-- `Expand(prk, info, length)` (rule R352). -/
def hkdfExpand (prk info : Bytes) (length : Nat) (M : Hmac) : Bytes × Hmac :=
  let (okm, M') := hkdfBlocks prk info (ceilDiv length M.hashLen) 1 [] M
  (okm.take length, M')

/-- `Expand(Extract(salt?, data), info, length)` (rule R355). -/
def hkdfDerive (salt : Option Bytes) (data info : Bytes) (length : Nat) (M : Hmac) : Bytes × Hmac :=
  let (prk, M1) := hkdfExtract salt data M
  hkdfExpand prk info length M1

/-- `Clamp(n)` (rule R364). -/
def clampIter (n : Int) : Nat := if n ≥ 1 then n.toNat else 1

/-- `j` further iterations of a PBKDF2 block, after `U` with the sum `F` (rule R365). -/
def pbkdf2Iterate : Nat → Bytes → Bytes → Hmac → Bytes × Hmac
  | 0, _, F, M => (F, M)
  | j + 1, U, F, M =>
    let (U', M') := (M.absorb U).finish
    pbkdf2Iterate j U' (xorBytes F U') M'

/-- Block `F(i)` with `c` iterations, by an HMAC initialised with the password (rule R365). -/
def pbkdf2Block (salt : Bytes) (c i : Nat) (M : Hmac) : Bytes × Hmac :=
  let (U, M1) := (M.absorb (salt ++ beBytes 4 i)).finish
  pbkdf2Iterate (c - 1) U U M1

/-- Blocks `F(i)`, `F(i+1)`, …, `n` of them (rule R362). -/
def pbkdf2Blocks (salt : Bytes) (c : Nat) : Nat → Nat → Hmac → Bytes × Hmac
  | 0, _, M => ([], M)
  | n + 1, i, M =>
    let (F, M1) := pbkdf2Block salt c i M
    let (rest, M2) := pbkdf2Blocks salt c n (i + 1) M1
    (F ++ rest, M2)

/-- `PBKDF2(P, salt, c, L)`: `M` is initialised once with the password (rules R362, R365). -/
def pbkdf2Derive (P salt : Bytes) (c L : Nat) (M : Hmac) : Bytes × Hmac :=
  let (dk, M') := pbkdf2Blocks salt c (ceilDiv L M.hashLen) 1 (M.initialize P)
  (dk.take L, M')

end Sys2Proof.Machine
end

