-- ==== Sys2Proof/Machine/Flags.lean ====
section
/-! DEFINITION. Every flag and how it is computed: the error codes, `STATUS`, `ERR`, `ERRLOG` (10_state.md
rules R23 to R25, R39; 60_exceptions.md rules R380, R385) and the poison bit (rules R31, R387). The engine
flags `squeezing` and `init` are fields of the objects; their checks are in Operands. -/

namespace Sys2Proof.Machine

/-- The number of an error code (rule R380). -/
def ErrCode.code : ErrCode → Nat
  | .invalidParameter => 1
  | .rangeError => 2
  | .stateError => 3
  | .illegalCommand => 4

/-- The value of `ERR` (rule R24). -/
def ErrCode.word (e : ErrCode) : Word := BitVec.ofNat 32 e.code

/-- The bit of `ERRLOG` a failure with this code sets (rules R25, R380). -/
def ErrCode.logBit (e : ErrCode) : Word := 1 <<< e.code

/-- `STATUS`: bit 0 `BUSY` is 0 whenever it can be read, bit 1 `ERRF` is 1 iff the last command failed, the
rest is 0 (rules R23, R385, R421). -/
def statusWord (failed : Bool) : Word := if failed then 0b10 else 0b00

/-- Does a failure with this code of a command of this kind set poison? A session command's does, with code
1, 2 or 3 (rule R387). -/
def poisons (session : Bool) : ErrCode → Bool
  | .illegalCommand => false
  | .invalidParameter => session
  | .rangeError => session
  | .stateError => session

end Sys2Proof.Machine
end

