-- ==== Sys2Proof/Machine/Ops.lean ====
section
/-! DEFINITION. The shared operations: operand memory (20_memory.md rules R72 to R75), the context file
(10_state.md rule R30), reporting success and taking an error (60_exceptions.md rules R385 to R387, R390), and
the shape of a command's execution (40_engine_contract.md rule R136; rule R384). -/

namespace Sys2Proof.Machine

/-! ### Operand memory -/

/-- What the list holds at an address; nothing for an address not written since hardware reset. -/
def lookupCell : List Host.Cell → Nat → Option Byte
  | [], _ => none
  | (a', b) :: cells, a => if a = a' then some b else lookupCell cells a

/-- Write one byte, keeping the addresses strictly rising. -/
def insertCell (a : Nat) (b : Byte) : List Host.Cell → List Host.Cell
  | [] => [(a, b)]
  | (a', b') :: cells =>
    if a < a' then (a, b) :: (a', b') :: cells
    else if a = a' then (a, b) :: cells
    else (a', b') :: insertCell a b cells

/-- The canonical form: addresses strictly rising. An unlisted address reads as no known value, which no entry
equals (log entry 2). -/
abbrev Memory.wf (m : Memory) : Prop := m.cells.Pairwise fun x y => x.1 < y.1

/-- Every listed address exists (rule R41). -/
abbrev Memory.within (m : Memory) (memBytes : Nat) : Prop := ∀ x ∈ m.cells, x.1 < memBytes

/-- The byte at an address: the one written, or the free value (rule R41; log entry 2). -/
def Memory.read (m : Memory) (a : Nat) : Byte := (lookupCell m.cells a).getD (Config.unwrittenByte m.epoch a)

/-- Write one byte. -/
def Memory.write (m : Memory) (a : Nat) (b : Byte) : Memory := { m with cells := insertCell a b m.cells }

/-- `MemRead(addr, n)` (rule R12). -/
def Memory.readBytes (m : Memory) (addr n : Nat) : Bytes := (List.range n).map fun i => m.read (addr + i)

/-- `MemWrite(addr, n, s)` with `n` the length of `s` (rule R12). -/
def Memory.writeBytes (m : Memory) (addr : Nat) : Bytes → Memory
  | [] => m
  | b :: s => (m.write addr b).writeBytes (addr + 1) s

/-- The parameter `MEM_BYTES` (rules R7, R28). -/
def State.memBytes (s : State) : Nat := s.memsz.toNat

/-- The parameter `NCTX`: there are as many contexts as the context file has (rules R7, R30). -/
def State.nctx (s : State) : Nat := s.ctx.length

/-- A write of operand memory at an address. -/
def State.writeMem (s : State) (addr : Nat) (out : Bytes) : State := { s with mem := s.mem.writeBytes addr out }

/-! ### The context file -/

/-- `ctx[c]`, if the instance has it (rules R30, R104). -/
def State.ctxAt (s : State) (c : CtxId) : Option Context := s.ctx[c.val]?

/-- `ctx[c] <- x` (rule R12). The old object is gone with all its storage (rules R137, R142; log entry 6). -/
def State.setCtx (s : State) (c : CtxId) (x : Context) : State := { s with ctx := s.ctx.set c.val x }

/-- `ctx[c].obj <- obj`, for an object that is not poisoned afterwards. -/
def State.setObj (s : State) (c : CtxId) (obj : Obj) : State := s.setCtx c { obj := obj, poison := false }

/-! ### Reporting -/

/-- A successful command's report (rule R385): `ERR`, `STATUS` and `RESULT`; `ERRLOG` unchanged. -/
def reportSuccess (r : Nat) (s : State) : State :=
  { s with reg := { s.reg with err := 0, status := statusWord false, result := BitVec.ofNat 32 r } }

/-- A failed command's report (rule R385). -/
def reportFailure (e : ErrCode) (s : State) : State :=
  { s with reg := { s.reg with
      err := e.word, status := statusWord true, result := 0, errlog := s.reg.errlog ||| e.logBit } }

/-- Set the poison bit of a context (rules R31, R387). -/
def poisonCtx (c : CtxId) (s : State) : State :=
  match s.ctxAt c with
  | none => s
  | some x => s.setCtx c { x with poison := true }

/-- TAKING AN ERROR, this hardware's exception entry (rule R390: "rule R385 and nothing more"): the report, and
the poison bit of the named context when a session command fails with code 1, 2 or 3 (rules R386, R387).
Nothing is saved but the code: there is no program counter, mode or handler. There is no return either
(rule R391); `RESET`, which clears the poison bit, is the recovery. -/
def takeError (session : Bool) (c : CtxId) (e : ErrCode) (s : State) : State :=
  reportFailure e (if poisons session e then poisonCtx c s else s)

/-! ### The shape of a command -/

/-- What a command's checks and effect come to (rule R6): success with the new state and `RESULT`, or failure
with one code. -/
inductive Verdict
  | ok (s : State) (result : Nat)
  | err (e : ErrCode)

/-- A test of a command's **Checks**: the failure condition and the code it raises. -/
abbrev Check := Bool × ErrCode

/-- The tests in order, the first that fails deciding (rule R384); if none does, the effect (rule R136). -/
def checked : List Check → (Unit → Verdict) → Verdict
  | [], effect => effect ()
  | (failed, e) :: checks, effect => if failed then .err e else checked checks effect

/-- Level 2 (rules R107, R110): the context the command names must exist and be of a kind `accept` accepts;
otherwise `IllegalCommand`. -/
def named {α : Type} (c : CtxId) (s : State) (accept : Obj → Option α) (k : Bool → α → Verdict) : Verdict :=
  match s.ctxAt c with
  | none => .err .illegalCommand
  | some x =>
    match accept x.obj with
    | none => .err .illegalCommand
    | some a => k x.poison a

/-- The end of every command: success is reported over the new state, failure over the old one (rules R136,
R385, R386). -/
def finishCommand (session : Bool) (c : CtxId) (s : State) : Verdict → Host.Outcome State Fault Refusal
  | .ok s' r => .next (reportSuccess r s')
  | .err e => .next (takeError session c e s)

end Sys2Proof.Machine
end

