-- ==== Sys2Proof/Machine/Operands.lean ====
section
/-! DEFINITION. Operands: descriptors, effective addresses and bounds checks (10_state.md rules R27, R29;
20_memory.md rules R73, R74; 30_encoding.md rule R106), the kinds that accept a command (rule R107) and the
state checks (60_exceptions.md rule R383). -/

namespace Sys2Proof.Machine

/-! ### Descriptors -/

/-- A buffer of operand memory: the pair `X_BASE`, `X_SIZE` (rule R29). -/
structure Buffer where
  base : Nat
  size : Nat
  deriving DecidableEq, Repr

/-- `SRC` -/
def State.src (s : State) : Buffer := ⟨s.reg.srcBase.toNat, s.reg.srcSize.toNat⟩
/-- `DST` -/
def State.dst (s : State) : Buffer := ⟨s.reg.dstBase.toNat, s.reg.dstSize.toNat⟩
/-- `KEY` -/
def State.key (s : State) : Buffer := ⟨s.reg.keyBase.toNat, s.reg.keySize.toNat⟩
/-- `SALT` -/
def State.salt (s : State) : Buffer := ⟨s.reg.saltBase.toNat, s.reg.saltSize.toNat⟩
/-- `AUX` -/
def State.aux (s : State) : Buffer := ⟨s.reg.auxBase.toNat, s.reg.auxSize.toNat⟩
/-- `NAME` -/
def State.name (s : State) : Buffer := ⟨s.reg.nameBase.toNat, s.reg.nameSize.toNat⟩

/-- `SRC_START` -/
def State.srcStart (s : State) : Nat := s.reg.srcStart.toNat
/-- `SRC_LEN` -/
def State.srcLen (s : State) : Nat := s.reg.srcLen.toNat
/-- `DST_START` -/
def State.dstStart (s : State) : Nat := s.reg.dstStart.toNat
/-- `DST_LEN` -/
def State.dstLen (s : State) : Nat := s.reg.dstLen.toNat

/-- `sext_32(reg[PARAM0])` (rule R27). -/
def State.param0 (s : State) : Int := s.reg.param0.toInt
/-- `sext_32(reg[PARAM1])` (rule R27). -/
def State.param1 (s : State) : Int := s.reg.param1.toInt

/-! ### Effective addresses -/

/-- `whole(X)` (rules R73, R106). -/
def State.whole (s : State) (X : Buffer) : Bytes := s.mem.readBytes X.base X.size

/-- `range(SRC)` (rules R73, R106). -/
def State.srcRange (s : State) : Bytes := s.mem.readBytes (s.src.base + s.srcStart) s.srcLen

/-- An operand a flag supplies: the whole buffer, or nothing, the descriptor then being ignored (rule R102). -/
def State.wholeIf (s : State) (present : Bool) (X : Buffer) : Option Bytes :=
  if present then some (s.whole X) else none

/-- The iteration count a command supplies: `Clamp(sext_32(PARAM1))` if `ITERP` (rules R360, R363, R364). -/
def State.iterOr (s : State) (iterp : Bool) (default : Nat) : Nat :=
  if iterp then clampIter s.param1 else default

/-- The output: `out` at offset `o` of the `DST` buffer (rule R73). -/
def State.output (s : State) (o : Nat) (out : Bytes) : State := s.writeMem (s.dst.base + o) out

/-! ### Bounds checks, in unbounded arithmetic (rules R10, R74) -/

/-- Check (a): the buffer is inside operand memory. -/
def State.memCheck (s : State) (X : Buffer) : Check := (decide (X.base + X.size > s.memBytes), .rangeError)

/-- Check (a) for an operand a flag supplies. -/
def State.memCheckIf (s : State) (present : Bool) (X : Buffer) : Check :=
  (present && decide (X.base + X.size > s.memBytes), .rangeError)

/-- Checks of `range(SRC)`: (a), then (b). -/
def State.rangeChecks (s : State) : List Check :=
  [s.memCheck s.src, (decide (s.srcStart + s.srcLen > s.src.size), .rangeError)]

/-- Checks of an output of `n` bytes at offset `o`: (a), then (c). -/
def State.dstChecks (s : State) (o n : Nat) : List Check :=
  [s.memCheck s.dst, (decide (o + n > s.dst.size), .rangeError)]

/-! ### Kinds (rule R107) -/

/-- Any kind but `EMPTY`. -/
def Obj.asAny : Obj → Option Obj
  | .empty => none
  | o => some o

/-- `MD`, `SPONGE` or `BLAKE2B`. -/
def Obj.asHash : Obj → Option Engine
  | .hash e => some e
  | .empty | .hmac _ | .hkdf _ | .pbkdf2 .. => none

/-- A `SPONGE` with `inst` SHAKE or CSHAKE. -/
def Obj.asXof : Obj → Option Sponge
  | .hash (.sponge e) => if e.cfg.isXof then some e else none
  | .hash (.md _) | .hash (.blake _) | .empty | .hmac _ | .hkdf _ | .pbkdf2 .. => none

/-- `HMAC`. -/
def Obj.asHmac : Obj → Option Hmac
  | .hmac M => some M
  | .empty | .hash _ | .hkdf _ | .pbkdf2 .. => none

/-- `HKDF`. -/
def Obj.asHkdf : Obj → Option Hmac
  | .hkdf M => some M
  | .empty | .hash _ | .hmac _ | .pbkdf2 .. => none

/-- `PBKDF2`. -/
def Obj.asPbkdf2 : Obj → Option (Hmac × Nat)
  | .pbkdf2 M iters => some (M, iters)
  | .empty | .hash _ | .hmac _ | .hkdf _ => none

/-- A kind that streams: a hash kind, or `HMAC`. -/
inductive Stream
  | hash (e : Engine)
  | hmac (M : Hmac)

/-- The kinds that accept `UPDB`, `UPD`, `UPDR`, `FIN` and `FINO`. -/
def Obj.asStream : Obj → Option Stream
  | .hash e => some (.hash e)
  | .hmac M => some (.hmac M)
  | .empty | .hkdf _ | .pbkdf2 .. => none

/-- `Absorb` (rules R131, R334). -/
def Stream.absorb (s : Bytes) : Stream → Obj
  | .hash e => .hash (e.absorb s)
  | .hmac M => .hmac (M.absorb s)

/-- `Finish` (rules R131, R335). -/
def Stream.finish : Stream → Bytes × Obj
  | .hash e => (e.finish.1, .hash e.finish.2)
  | .hmac M => (M.finish.1, .hmac M.finish.2)

/-- `hashLen` (rule R131). -/
def Stream.hashLen : Stream → Nat
  | .hash e => e.hashLen
  | .hmac M => M.hashLen

/-! ### State checks (rule R383), level 3 of rule R384 -/

/-- The context is poisoned. -/
def poisonCheck (poison : Bool) : Check := (poison, .stateError)

/-- Poison, then HMAC not initialised. -/
def Stream.readyChecks (poison : Bool) : Stream → List Check
  | .hash _ => [poisonCheck poison]
  | .hmac M => [poisonCheck poison, (!M.init, .stateError)]

/-- Poison, then HMAC not initialised, then sponge squeezing. -/
def Stream.absorbChecks (poison : Bool) : Stream → List Check
  | .hash e => [poisonCheck poison, (e.squeezing, .stateError)]
  | .hmac M => [poisonCheck poison, (!M.init, .stateError)]

/-! ### Metadata and fresh objects, by kind -/

/-- `hashLen` of any object (rules R131, R336, R357). -/
def Obj.hashLen : Obj → Nat
  | .empty => 0
  | .hash e => e.hashLen
  | .hmac M => M.hashLen
  | .hkdf M => M.hashLen
  | .pbkdf2 M _ => M.hashLen

/-- `blockLen` of any object (rules R131, R336, R357). -/
def Obj.blockLen : Obj → Nat
  | .empty => 0
  | .hash e => e.blockLen
  | .hmac M => M.blockLen
  | .hkdf M => M.blockLen
  | .pbkdf2 M _ => M.blockLen

/-- `GETALG`'s number (rule R143). -/
def Obj.algId : Obj → Nat
  | .empty => 0
  | .hash e => e.cfg.algId
  | .hmac _ => 8
  | .hkdf _ => 9
  | .pbkdf2 .. => 10

/-- `Fresh'` of any object (rules R140, R337, R357), which is also `FreshCopy` (rules R141, R337). -/
def Obj.refresh : Obj → Obj
  | .empty => .empty
  | .hash e => .hash (Engine.fresh e.cfg)
  | .hmac M => .hmac M.refresh
  | .hkdf M => .hkdf M.refresh
  | .pbkdf2 M iters => .pbkdf2 M.refresh iters

end Sys2Proof.Machine
end

