-- ==== Sys2Proof/Machine/Construct.lean ====
section
/-! DEFINITION. The construction commands, opcodes 0x10 to 0x1B: 40_engine_contract.md rule R137, 41_md_sha.md
rules R207 to R209, 42_sponge_keccak.md rules R270 to R272, 43_blake2b.md rule R310, 44_hmac.md rule R332,
45_kdf.md rules R350, R360 and R361. Failures of these commands never poison (rule R387). -/

namespace Sys2Proof.Machine

/-- A `NEW.*` command: any kind of context, poisoned or not; after the checks, the new object replaces the old
(rules R107, R137). -/
def construct (c : CtxId) (s : State) (checks : List Check) (obj : Unit → Obj) : Host.Outcome State Fault Refusal :=
  finishCommand false c s <| named c s some fun _ _ => checked checks fun _ => .ok (s.setObj c (obj ())) 0

/-- A `WRAP.*` command: the context's object, of an accepting kind and not poisoned, is built into its owner
(rules R43, R387). -/
def wrap {α : Type} (c : CtxId) (s : State) (accept : Obj → Option α) (obj : α → Obj) : Host.Outcome State Fault Refusal :=
  finishCommand false c s <| named c s accept fun poison a =>
    checked [poisonCheck poison] fun _ => .ok (s.setObj c (obj a)) 0

/-- `NEW.SHA1 c` (rule R207). -/
def execNewSha1 (c : CtxId) (s : State) : Host.Outcome State Fault Refusal :=
  construct c s [] fun _ => .hash (.md (Md.fresh .sha1))

/-- `NEW.SHA256 c` (rule R208). -/
def execNewSha256 (c : CtxId) (s : State) : Host.Outcome State Fault Refusal :=
  construct c s [] fun _ => .hash (.md (Md.fresh .sha256))

/-- `NEW.SHA512 c` (rule R209). -/
def execNewSha512 (c : CtxId) (s : State) : Host.Outcome State Fault Refusal :=
  construct c s [] fun _ => .hash (.md (Md.fresh .sha512))

/-- The bit lengths `NEW.SHA3` accepts (rule R270). -/
def sha3Bits (n : Int) : Option Sha3Bits :=
  if n = 224 then some .b224 else if n = 256 then some .b256
  else if n = 384 then some .b384 else if n = 512 then some .b512 else none

/-- The bit lengths `NEW.SHAKE` and `NEW.CSHAKE` accept (rules R271, R272). -/
def xofBits (n : Int) : Option XofBits :=
  if n = 128 then some .b128 else if n = 256 then some .b256 else none

/-- `NEW.SHA3 c` (rule R270). -/
def execNewSha3 (c : CtxId) (s : State) : Host.Outcome State Fault Refusal :=
  construct c s [((sha3Bits s.param0).isNone, .invalidParameter)] fun _ =>
    .hash (.sponge (Sponge.fresh (.sha3 ((sha3Bits s.param0).getD .b256))))

/-- `NEW.SHAKE c` (rule R271). -/
def execNewShake (c : CtxId) (s : State) : Host.Outcome State Fault Refusal :=
  construct c s [((xofBits s.param0).isNone, .invalidParameter)] fun _ =>
    .hash (.sponge (Sponge.fresh (.shake ((xofBits s.param0).getD .b128))))

/-- `NEW.CSHAKE c [, NAMEP][|AUXP]` (rule R272). -/
def execNewCshake (c : CtxId) (namep auxp : Bool) (s : State) : Host.Outcome State Fault Refusal :=
  construct c s
    [((xofBits s.param0).isNone, .invalidParameter), s.memCheckIf namep s.name, s.memCheckIf auxp s.aux] fun _ =>
    .hash (.sponge (Sponge.fresh (.cshake ((xofBits s.param0).getD .b128)
      ((s.wholeIf namep s.name).getD []) ((s.wholeIf auxp s.aux).getD []))))

/-- `NEW.BLAKE2B c [, KEYP][|SALTP][|AUXP]` (rule R310). -/
def execNewBlake2b (c : CtxId) (keyp saltp auxp : Bool) (s : State) : Host.Outcome State Fault Refusal :=
  construct c s
    [(decide (s.param0 < 1 ∨ s.param0 > 64), .invalidParameter),
     (keyp && decide (s.key.size > 64), .invalidParameter),
     (saltp && decide (s.salt.size ≠ 16), .invalidParameter),
     (auxp && decide (s.aux.size ≠ 16), .invalidParameter),
     s.memCheckIf keyp s.key, s.memCheckIf saltp s.salt, s.memCheckIf auxp s.aux] fun _ =>
    .hash (.blake (Blake.fresh
      { dlen := s.param0.toNat
        key := (s.wholeIf keyp s.key).getD []
        salt := s.wholeIf saltp s.salt
        pers := s.wholeIf auxp s.aux }))

/-- `WRAP.HMAC c` (rule R332). -/
def execWrapHmac (c : CtxId) (s : State) : Host.Outcome State Fault Refusal :=
  wrap c s Obj.asHash fun e => .hmac (Hmac.wrap e.cfg)

/-- `WRAP.HKDF c` (rule R350). -/
def execWrapHkdf (c : CtxId) (s : State) : Host.Outcome State Fault Refusal :=
  wrap c s Obj.asHmac fun M => .hkdf M.refresh

/-- `WRAP.PBKDF2 c [, ITERP]` (rule R361). -/
def execWrapPbkdf2 (c : CtxId) (iterp : Bool) (s : State) : Host.Outcome State Fault Refusal :=
  wrap c s Obj.asHmac fun M => .pbkdf2 M.refresh (s.iterOr iterp Config.pbkdf2DefaultIter)

/-- `NEW.PBKDF2 c [, ITERP]`: over HMAC-SHA-1 (rule R360). -/
def execNewPbkdf2 (c : CtxId) (iterp : Bool) (s : State) : Host.Outcome State Fault Refusal :=
  construct c s [] fun _ => .pbkdf2 (Hmac.wrap (.md .sha1)) (s.iterOr iterp Config.pbkdf2DefaultIter)

end Sys2Proof.Machine
end

