-- ==== Sys2Proof/Machine/Kdf.lean ====
section
/-! DEFINITION. The KDF commands, opcodes 0x40 to 0x43: 45_kdf.md rules R353 to R355 and R363. Session
commands. The requested length is `sext_32(PARAM0)`; once it is known not to be negative it is the natural
number `PARAM0.toNat`. -/

namespace Sys2Proof.Machine

/-- The requested length as a natural number (0 for a negative one, which the checks reject). -/
def State.reqLen (s : State) : Nat := s.param0.toNat

/-- Negative length (rules R354, R355, R363). -/
def State.negativeLen (s : State) : Check := (decide (s.param0 < 0), .invalidParameter)

/-- Length over `255 · hLen` (rules R354, R355). -/
def State.overlongLen (s : State) (M : Hmac) : Check :=
  (decide (s.param0 > (Config.hkdfMaxBlocks * M.hashLen : Nat)), .invalidParameter)

/-- `HKDF.EXTRACT c [, SALTP]` (rule R353). -/
def execHkdfExtract (c : CtxId) (saltp : Bool) (s : State) : Host.Outcome State Fault Refusal :=
  finishCommand true c s <| named c s Obj.asHkdf fun poison M =>
    checked ([poisonCheck poison, s.memCheckIf saltp s.salt, s.memCheck s.src] ++ s.dstChecks 0 M.hashLen) fun _ =>
      let r := hkdfExtract (s.wholeIf saltp s.salt) (s.whole s.src) M
      .ok ((s.output 0 r.1).setObj c (.hkdf r.2)) M.hashLen

/-- `HKDF.EXPAND c [, AUXP]` (rule R354). -/
def execHkdfExpand (c : CtxId) (auxp : Bool) (s : State) : Host.Outcome State Fault Refusal :=
  finishCommand true c s <| named c s Obj.asHkdf fun poison M =>
    checked ([poisonCheck poison, (decide (s.key.size < M.hashLen), .invalidParameter), s.negativeLen, s.overlongLen M,
        s.memCheck s.key, s.memCheckIf auxp s.aux] ++ s.dstChecks 0 s.reqLen) fun _ =>
      let r := hkdfExpand (s.whole s.key) ((s.wholeIf auxp s.aux).getD []) s.reqLen M
      .ok ((s.output 0 r.1).setObj c (.hkdf r.2)) s.reqLen

/-- `HKDF.DERIVE c [, SALTP][|AUXP]` (rule R355). -/
def execHkdfDerive (c : CtxId) (saltp auxp : Bool) (s : State) : Host.Outcome State Fault Refusal :=
  finishCommand true c s <| named c s Obj.asHkdf fun poison M =>
    checked ([poisonCheck poison, s.negativeLen, s.overlongLen M, s.memCheckIf saltp s.salt, s.memCheckIf auxp s.aux,
        s.memCheck s.src] ++ s.dstChecks 0 s.reqLen) fun _ =>
      let r := hkdfDerive (s.wholeIf saltp s.salt) (s.whole s.src) ((s.wholeIf auxp s.aux).getD []) s.reqLen M
      .ok ((s.output 0 r.1).setObj c (.hkdf r.2)) s.reqLen

/-- `PBKDF2.DERIVE c [, ITERP]` (rule R363). -/
def execPbkdf2Derive (c : CtxId) (iterp : Bool) (s : State) : Host.Outcome State Fault Refusal :=
  finishCommand true c s <| named c s Obj.asPbkdf2 fun poison x =>
    checked ([poisonCheck poison, s.negativeLen, s.memCheck s.src, s.memCheck s.salt] ++ s.dstChecks 0 s.reqLen) fun _ =>
      let r := pbkdf2Derive (s.whole s.src) (s.whole s.salt) (s.iterOr iterp x.2) s.reqLen x.1
      .ok ((s.output 0 r.1).setObj c (.pbkdf2 r.2 x.2)) s.reqLen

end Sys2Proof.Machine
end

