-- ==== Sys2Proof/Machine/Mac.lean ====
section
/-! DEFINITION. The MAC commands, opcodes 0x30 and 0x31: 44_hmac.md rules R333 and R338. Session commands. -/

namespace Sys2Proof.Machine

/-- `MINIT c` (rule R333). -/
def execMinit (c : CtxId) (s : State) : Host.Outcome State Fault Refusal :=
  finishCommand true c s <| named c s Obj.asHmac fun poison M =>
    checked [poisonCheck poison, s.memCheck s.key] fun _ =>
      .ok (s.setObj c (.hmac (M.initialize (s.whole s.key)))) 0

/-- `MCH c` (rule R338). -/
def execMch (c : CtxId) (s : State) : Host.Outcome State Fault Refusal :=
  finishCommand true c s <| named c s Obj.asHmac fun poison M =>
    checked ([poisonCheck poison, s.memCheck s.key, s.memCheck s.src] ++ s.dstChecks 0 M.hashLen) fun _ =>
      let r := M.compute (s.whole s.key) (s.whole s.src)
      .ok ((s.output 0 r.1).setObj c (.hmac r.2)) M.hashLen

end Sys2Proof.Machine
end

