-- ==== Sys2Proof/Machine/Manage.lean ====
section
/-! DEFINITION. The management commands, opcodes 0x01 to 0x07: 40_engine_contract.md rules R140 to R145,
44_hmac.md rule R339. Failures of these commands never poison (rule R387). -/

namespace Sys2Proof.Machine

/-- `RESET c` (rule R140); accepted on a poisoned context, whose poison it clears. -/
def execReset (c : CtxId) (s : State) : Host.Outcome State Fault Refusal :=
  finishCommand false c s <| named c s Obj.asAny fun _ obj => .ok (s.setObj c obj.refresh) 0

/-- `CLONE cd, cs` (rule R141): level 2 asks for a source that is not `EMPTY` and a destination that exists and
is not the source; then the source must not be poisoned. -/
def execClone (d src : CtxId) (s : State) : Host.Outcome State Fault Refusal :=
  finishCommand false d s <|
    named d s some fun _ _ =>
    named src s Obj.asAny fun poison obj =>
    if d = src then .err .illegalCommand else
    checked [poisonCheck poison] fun _ => .ok (s.setObj d obj.refresh) 0

/-- `DISPOSE c` (rule R142); accepted on a poisoned context. -/
def execDispose (c : CtxId) (s : State) : Host.Outcome State Fault Refusal :=
  finishCommand false c s <| named c s Obj.asAny fun _ _ => .ok (s.setObj c .empty) 0

/-- `GETALG c` (rule R143). -/
def execGetalg (c : CtxId) (s : State) : Host.Outcome State Fault Refusal :=
  finishCommand false c s <| named c s Obj.asAny fun _ obj => .ok s obj.algId

/-- `GETHLEN c` (rule R144). -/
def execGethlen (c : CtxId) (s : State) : Host.Outcome State Fault Refusal :=
  finishCommand false c s <| named c s Obj.asAny fun _ obj => .ok s obj.hashLen

/-- `GETBLEN c` (rule R145). -/
def execGetblen (c : CtxId) (s : State) : Host.Outcome State Fault Refusal :=
  finishCommand false c s <| named c s Obj.asAny fun _ obj => .ok s obj.blockLen

/-- `GETHF c` (rule R339): `GETALG`'s number of the owned engine. -/
def execGethf (c : CtxId) (s : State) : Host.Outcome State Fault Refusal :=
  finishCommand false c s <| named c s Obj.asHmac fun _ M => .ok s M.cfg.algId

end Sys2Proof.Machine
end

