-- ==== Sys2Proof/Machine/Streaming.lean ====
section
/-! DEFINITION. The hash-streaming commands, opcodes 0x20 to 0x2D: 40_engine_contract.md rules R150 to R161.
They are session commands: a failure with code 1, 2 or 3 poisons the context (rule R387). -/

namespace Sys2Proof.Machine

/-- An absorbing command: state checks, then the operand's own checks, then `Absorb` (rules R150 to R152). -/
def absorbing (c : CtxId) (s : State) (checks : List Check) (input : Unit → Bytes) : Host.Outcome State Fault Refusal :=
  finishCommand true c s <| named c s Obj.asStream fun poison x =>
    checked (x.absorbChecks poison ++ checks) fun _ => .ok (s.setObj c (x.absorb (input ()))) 0

/-- A finalising command that writes the digest at offset `o` (rules R153, R154). -/
def finalising (c : CtxId) (s : State) (o : Nat) : Host.Outcome State Fault Refusal :=
  finishCommand true c s <| named c s Obj.asStream fun poison x =>
    checked (x.readyChecks poison ++ s.dstChecks o x.hashLen) fun _ =>
      .ok ((s.output o x.finish.1).setObj c x.finish.2) x.hashLen

/-- A squeezing command: `n` bytes of the output stream at offset `o`, then the object `after` gives (rules
R155 to R157). -/
def squeezing (c : CtxId) (s : State) (o : Nat) (n : Sponge → Nat) (after : Sponge → Sponge) :
    Host.Outcome State Fault Refusal :=
  finishCommand true c s <| named c s Obj.asXof fun poison e =>
    checked (poisonCheck poison :: s.dstChecks o (n e)) fun _ =>
      .ok ((s.output o (e.squeeze (n e)).1).setObj c (.hash (.sponge (after e)))) (n e)

/-- A one-shot hash: the digest of the input under the context's configuration, at offset 0; the context is
unchanged (rules R158, R159). -/
def computing (c : CtxId) (s : State) (checks : List Check) (input : Unit → Bytes) : Host.Outcome State Fault Refusal :=
  finishCommand true c s <| named c s Obj.asHash fun poison e =>
    checked (poisonCheck poison :: checks ++ s.dstChecks 0 e.hashLen) fun _ =>
      .ok (s.output 0 (hashOf e.cfg (input ()))) e.hashLen

/-- A one-shot extendable output of `DST_LEN` bytes; the context is unchanged (rules R160, R161). -/
def computingXof (c : CtxId) (s : State) (checks : List Check) (input : Unit → Bytes) : Host.Outcome State Fault Refusal :=
  finishCommand true c s <| named c s Obj.asXof fun poison e =>
    checked (poisonCheck poison :: checks ++ s.dstChecks 0 s.dstLen) fun _ =>
      .ok (s.output 0 (xofOf e.cfg (input ()) s.dstLen)) s.dstLen

/-- `UPDB c, #b` (rule R150). -/
def execUpdb (c : CtxId) (b : Byte) (s : State) : Host.Outcome State Fault Refusal :=
  absorbing c s [] fun _ => [b]

/-- `UPD c` (rule R151). -/
def execUpd (c : CtxId) (s : State) : Host.Outcome State Fault Refusal :=
  absorbing c s [s.memCheck s.src] fun _ => s.whole s.src

/-- `UPDR c` (rule R152). -/
def execUpdr (c : CtxId) (s : State) : Host.Outcome State Fault Refusal :=
  absorbing c s s.rangeChecks fun _ => s.srcRange

/-- `FIN c` (rule R153). -/
def execFin (c : CtxId) (s : State) : Host.Outcome State Fault Refusal :=
  finalising c s 0

/-- `FINO c` (rule R154). -/
def execFino (c : CtxId) (s : State) : Host.Outcome State Fault Refusal :=
  finalising c s s.dstStart

/-- `FINOL c`: `DST_LEN` bytes, then the session ends (rule R155). -/
def execFinol (c : CtxId) (s : State) : Host.Outcome State Fault Refusal :=
  squeezing c s s.dstStart (fun _ => s.dstLen) fun e => Sponge.fresh e.cfg

/-- `OUT c`: the default number of bytes; the session goes on squeezing (rule R156). -/
def execOut (c : CtxId) (s : State) : Host.Outcome State Fault Refusal :=
  squeezing c s s.dstStart (fun e => e.cfg.hashLen) fun e => (e.squeeze e.cfg.hashLen).2

/-- `OUTL c`: `DST_LEN` bytes; the session goes on squeezing (rule R157). -/
def execOutl (c : CtxId) (s : State) : Host.Outcome State Fault Refusal :=
  squeezing c s s.dstStart (fun _ => s.dstLen) fun e => (e.squeeze s.dstLen).2

/-- `CH c` (rule R158). -/
def execCh (c : CtxId) (s : State) : Host.Outcome State Fault Refusal :=
  computing c s [s.memCheck s.src] fun _ => s.whole s.src

/-- `CHR c` (rule R159). -/
def execChr (c : CtxId) (s : State) : Host.Outcome State Fault Refusal :=
  computing c s s.rangeChecks fun _ => s.srcRange

/-- `CHL c` (rule R160). -/
def execChl (c : CtxId) (s : State) : Host.Outcome State Fault Refusal :=
  computingXof c s [s.memCheck s.src] fun _ => s.whole s.src

/-- `CHRL c` (rule R161). -/
def execChrl (c : CtxId) (s : State) : Host.Outcome State Fault Refusal :=
  computingXof c s s.rangeChecks fun _ => s.srcRange

end Sys2Proof.Machine
end

