-- ==== Sys2Proof/Machine/Dispatch.lean ====
section
/-! DEFINITION. `exec`: one arm per command, each one call of the command's meaning. -/

namespace Sys2Proof.Machine

/-- What a decoded command does (rule R136, steps 2 to 5; `CMD` is stored before, see Issue). -/
def exec (i : Instr) (s : State) : Host.Outcome State Fault Refusal :=
  match i with
  | .reset c => Sys2Proof.Machine.execReset c s
  | .clone d src => Sys2Proof.Machine.execClone d src s
  | .dispose c => Sys2Proof.Machine.execDispose c s
  | .getalg c => Sys2Proof.Machine.execGetalg c s
  | .gethlen c => Sys2Proof.Machine.execGethlen c s
  | .getblen c => Sys2Proof.Machine.execGetblen c s
  | .gethf c => Sys2Proof.Machine.execGethf c s
  | .newSha1 c => Sys2Proof.Machine.execNewSha1 c s
  | .newSha256 c => Sys2Proof.Machine.execNewSha256 c s
  | .newSha512 c => Sys2Proof.Machine.execNewSha512 c s
  | .newSha3 c => Sys2Proof.Machine.execNewSha3 c s
  | .newShake c => Sys2Proof.Machine.execNewShake c s
  | .newCshake c namep auxp => Sys2Proof.Machine.execNewCshake c namep auxp s
  | .newBlake2b c keyp saltp auxp => Sys2Proof.Machine.execNewBlake2b c keyp saltp auxp s
  | .wrapHmac c => Sys2Proof.Machine.execWrapHmac c s
  | .wrapHkdf c => Sys2Proof.Machine.execWrapHkdf c s
  | .wrapPbkdf2 c iterp => Sys2Proof.Machine.execWrapPbkdf2 c iterp s
  | .newPbkdf2 c iterp => Sys2Proof.Machine.execNewPbkdf2 c iterp s
  | .updb c b => Sys2Proof.Machine.execUpdb c b s
  | .upd c => Sys2Proof.Machine.execUpd c s
  | .updr c => Sys2Proof.Machine.execUpdr c s
  | .fin c => Sys2Proof.Machine.execFin c s
  | .fino c => Sys2Proof.Machine.execFino c s
  | .finol c => Sys2Proof.Machine.execFinol c s
  | .out c => Sys2Proof.Machine.execOut c s
  | .outl c => Sys2Proof.Machine.execOutl c s
  | .ch c => Sys2Proof.Machine.execCh c s
  | .chr c => Sys2Proof.Machine.execChr c s
  | .chl c => Sys2Proof.Machine.execChl c s
  | .chrl c => Sys2Proof.Machine.execChrl c s
  | .minit c => Sys2Proof.Machine.execMinit c s
  | .mch c => Sys2Proof.Machine.execMch c s
  | .hkdfExtract c saltp => Sys2Proof.Machine.execHkdfExtract c saltp s
  | .hkdfExpand c auxp => Sys2Proof.Machine.execHkdfExpand c auxp s
  | .hkdfDerive c saltp auxp => Sys2Proof.Machine.execHkdfDerive c saltp auxp s
  | .pbkdf2Derive c iterp => Sys2Proof.Machine.execPbkdf2Derive c iterp s

end Sys2Proof.Machine
end

