-- ==== Sys2Proof/Machine/HostPort.lean ====
section
/-! DEFINITION. The host's accesses to the register block and to operand memory: 10_state.md rules R21 to R29,
20_memory.md rules R70 to R72. A write to `CMD` is a command and is in Issue. -/

namespace Sys2Proof.Machine

/-- The value a read of the aligned offset returns; reserved offsets read 0 (rules R21, R28, R71). -/
def State.readReg (s : State) (offset : Nat) : Word :=
  match offset with
  | 0x00 => s.reg.cmd
  | 0x04 => s.reg.status
  | 0x08 => s.reg.err
  | 0x0C => s.reg.errlog
  | 0x10 => s.reg.result
  | 0x14 => s.reg.param0
  | 0x18 => s.reg.param1
  | 0x1C => Config.partId
  | 0x20 => s.reg.srcBase
  | 0x24 => s.reg.srcSize
  | 0x28 => s.reg.srcStart
  | 0x2C => s.reg.srcLen
  | 0x30 => s.reg.dstBase
  | 0x34 => s.reg.dstSize
  | 0x38 => s.reg.dstStart
  | 0x3C => s.reg.dstLen
  | 0x40 => s.reg.keyBase
  | 0x44 => s.reg.keySize
  | 0x48 => s.reg.saltBase
  | 0x4C => s.reg.saltSize
  | 0x50 => s.reg.auxBase
  | 0x54 => s.reg.auxSize
  | 0x58 => s.reg.nameBase
  | 0x5C => s.reg.nameSize
  | 0x60 => BitVec.ofNat 32 s.nctx
  | 0x64 => s.memsz
  | _ => 0

/-- A write of a word to an aligned offset other than `CMD`'s: the `RW` registers store it, a write to a
read-only register or a reserved offset is ignored (rules R21, R71). -/
def writeReg (offset : Nat) (v : Word) (s : State) : State :=
  match offset with
  | 0x14 => { s with reg := { s.reg with param0 := v } }
  | 0x18 => { s with reg := { s.reg with param1 := v } }
  | 0x20 => { s with reg := { s.reg with srcBase := v } }
  | 0x24 => { s with reg := { s.reg with srcSize := v } }
  | 0x28 => { s with reg := { s.reg with srcStart := v } }
  | 0x2C => { s with reg := { s.reg with srcLen := v } }
  | 0x30 => { s with reg := { s.reg with dstBase := v } }
  | 0x34 => { s with reg := { s.reg with dstSize := v } }
  | 0x38 => { s with reg := { s.reg with dstStart := v } }
  | 0x3C => { s with reg := { s.reg with dstLen := v } }
  | 0x40 => { s with reg := { s.reg with keyBase := v } }
  | 0x44 => { s with reg := { s.reg with keySize := v } }
  | 0x48 => { s with reg := { s.reg with saltBase := v } }
  | 0x4C => { s with reg := { s.reg with saltSize := v } }
  | 0x50 => { s with reg := { s.reg with auxBase := v } }
  | 0x54 => { s with reg := { s.reg with auxSize := v } }
  | 0x58 => { s with reg := { s.reg with nameBase := v } }
  | 0x5C => { s with reg := { s.reg with nameSize := v } }
  | _ => s

/-- A host access to `REG` goes on only for an aligned 32-bit word inside the 256 bytes (rules R70, R71; log
entry 4). -/
def regAccess (offset width : Nat) (k : Host.Outcome State Fault Refusal) : Host.Outcome State Fault Refusal :=
  if ¬(width = 4 ∧ offset % 4 = 0) then .refused .undefinedRegAccess
  else if offset ≥ 256 then .fault .noSuchAddress
  else k

/-- A host access to `OPMEM` goes on only for 1, 2 or 4 bytes that all exist (rule R72; log entry 4). -/
def memAccess (s : State) (addr width : Nat) (k : Host.Outcome State Fault Refusal) : Host.Outcome State Fault Refusal :=
  if ¬(width = 1 ∨ width = 2 ∨ width = 4) then .refused .undefinedMemAccess
  else if addr + width > s.memBytes then .fault .noSuchAddress
  else k

/-- The bytes of a host write of `width` bytes: the least significant at the lowest address (rule R72). -/
def hostBytes (width : Nat) (v : Word) : Bytes :=
  (List.range width).map fun i => BitVec.ofNat 8 (v.toNat / 256 ^ i)

/-- What a host read of `width` bytes at `addr` returns: little-endian, zero-extended to a word (rule R72). -/
def State.readMem (s : State) (addr width : Nat) : Word :=
  BitVec.ofNat 32 ((s.mem.readBytes addr width).foldr (fun b v => b.toNat + 256 * v) 0)

end Sys2Proof.Machine
end

