-- ==== Sys2Proof/Machine/Issue.lean ====
section
/-! DEFINITION. Issuing a command by a write to `CMD` (10_state.md rule R22; 40_engine_contract.md rule R136)
and what each event of the outside world does (00_scope.md rule R5; 70_reset_and_hazards.md rule R410). -/

namespace Sys2Proof.Machine

/-- The first thing a command does: `CMD <- w` (rules R22, R385). -/
def storeCmd (w : Word) (s : State) : State := { s with reg := { s.reg with cmd := w } }

/-- A write of `w` to `CMD`: store it, decode it, execute it; a word that spells no command fails with
`IllegalCommand` (rules R22, R110, R136). -/
def issue (w : Word) (s : State) : Host.Outcome State Fault Refusal :=
  match decode w with
  | none => .next (reportFailure .illegalCommand (storeCmd w s))
  | some i => exec i (storeCmd w s)

/-- Hardware reset (rules R410, R411): the reset state of this instance; operand memory is unspecified anew. -/
def hardReset (s : State) : State :=
  State.resetWith s.nctx s.memsz (s.mem.epoch + 1) s.pending

/-- What an event does to a state it has been taken off `pending` of. Reads have no side effect (rules R71,
R82); what they return is `State.readReg` and `State.readMem`. -/
def perform (e : Event) (s : State) : Host.Outcome State Fault Refusal :=
  match e with
  | .regWrite offset width v =>
    regAccess offset width <| if offset = 0 then issue v s else .next (writeReg offset v s)
  | .regRead offset width => regAccess offset width (.next s)
  | .memWrite addr width v => memAccess s addr width (.next (s.writeMem addr (hostBytes width v)))
  | .memRead addr width => memAccess s addr width (.next s)
  | .hardReset => .next (hardReset s)

/-- The next event in order; with none pending the block is idle and all its state survives (rules R5, R83,
R394). -/
def advance (s : State) : Host.Outcome State Fault Refusal :=
  match s.pending with
  | [] => .next s
  | e :: es => perform e { s with pending := es }

/-- The event that makes the block fetch the word: a write of it to `CMD` (rule R38). -/
def fetchEvent (nbits w : Nat) : Event := .regWrite 0x00 4 (BitVec.ofNat 32 (w % 2 ^ nbits))

end Sys2Proof.Machine
end

