-- ==== Sys2Proof/Machine/Step.lean ====
section
/-! DEFINITION. One step of the machine: the outside world's next event, a command among them running to
completion (00_scope.md rules R5, R6; 20_memory.md rule R83). -/

namespace Sys2Proof.Machine

/-- One step. -/
def step (s : State) : Host.Outcome State Fault Refusal := advance s

/-- The host's next action is to write the word to `CMD` (log entry 3). -/
def State.withFetchWord (s : State) (nbits w : Nat) : State :=
  { s with pending := fetchEvent nbits w :: s.pending }

end Sys2Proof.Machine
end

