-- ==== Sys2Proof/Machine/Reference.lean ====
section
/-! DEFINITION. What the engines and controllers compute, as functions of the whole message at once: the padded
hash of 41_md_sha.md rule R205, the output stream of 42_sponge_keccak.md rule R263, BLAKE2b of 43_blake2b.md
rules R303 and R305, HMAC of 44_hmac.md rule R330, and the KDFs of 45_kdf.md rules R351, R352 and R362. The
streaming engines do not use this file; the statements compare them with it. -/

namespace Sys2Proof.Machine

/-- The whole blocks of `q` bytes of a string, in order. -/
def blocksOf (q : Nat) (s : Bytes) : List Bytes := (List.range (s.length / q)).map fun i => slice s (q * i) q

/-! ### Merkle–Damgård -/

/-- The digest of a message: its padding appended, every block compressed in order (rules R205, R206, R241). -/
def mdReference (alg : MdAlg) (m : Bytes) : Bytes :=
  ((blocksOf alg.blockLen (m ++ mdPad alg m.length)).foldl (fun r block => MdRegs.compress block r)
    (MdRegs.initial alg)).digest

/-! ### Sponge -/

/-- `pad` of rule R263, for `len` bytes of prefix and message. -/
def spongePad (cfg : SpongeCfg) (len : Nat) : Bytes :=
  let j := cfg.rateBytes - len % cfg.rateBytes
  let f : Byte := cfg.suffix.1 ||| (1 <<< cfg.suffix.2)
  if j = 1 then [f ||| 0x80] else [f] ++ zeros (j - 2) ++ [0x80]

/-- `A_n` of rule R263: every block of `p ++ pad` exclusive-ored and permuted. -/
def spongeAbsorbed (cfg : SpongeCfg) (m : Bytes) : Lanes :=
  let p := cfg.prefixBytes ++ m
  (blocksOf cfg.rateBytes (p ++ spongePad cfg p.length)).foldl
    (fun A block => keccakF (xorBlock A block (cfg.rate / 64))) zeroLanes

/-- `Y_k` of rule R263. -/
def spongeOutputState (cfg : SpongeCfg) (m : Bytes) : Nat → Lanes
  | 0 => spongeAbsorbed cfg m
  | k + 1 => keccakF (spongeOutputState cfg m k)

/-- Byte `k` of the output stream `Z_cfg(m)` (rule R263). -/
def spongeStream (cfg : SpongeCfg) (m : Bytes) (k : Nat) : Byte :=
  (stateBytes (spongeOutputState cfg m (k / cfg.rateBytes)) (cfg.rate / 64)).getD (k % cfg.rateBytes) 0

/-- `Z_cfg(m)[k .. k+n)`. -/
def spongeSegment (cfg : SpongeCfg) (m : Bytes) (k n : Nat) : Bytes :=
  (List.range n).map fun i => spongeStream cfg m (k + i)

/-! ### BLAKE2b -/

/-- The compression of a block when `T` bytes have been fed to the function, this block's included (rule R302). -/
def blakeBlock (h : Words8 64) (block : Bytes) (T : Nat) (last : Bool) : Words8 64 :=
  blakeF h block (BitVec.ofNat 64 (T / 2 ^ 64)) (BitVec.ofNat 64 T) last

/-- The bytes BLAKE2b hashes: the zero-padded key block if there is a key, then the message (rule R309). -/
def blakeInput (cfg : BlakeCfg) (m : Bytes) : Bytes :=
  (if cfg.key.length > 0 then cfg.key ++ zeros (128 - cfg.key.length) else []) ++ m

/-- The digest: every block but the last unflagged, the last zero-padded and flagged (rules R303, R305, R311). -/
def blakeReference (cfg : BlakeCfg) (m : Bytes) : Bytes :=
  let s := blakeInput cfg m
  let n := (s.length - 1) / 128
  let h := (List.range n).foldl (fun h i => blakeBlock h (slice s (128 * i) 128) (128 * (i + 1)) false) cfg.initial
  let rest := s.drop (128 * n)
  (blakeOutput (blakeBlock h (rest ++ zeros (128 - rest.length)) s.length true)).take cfg.dlen

/-! ### MAC and KDFs -/

/-- `HMAC_cfg(K, m)` (rule R330). -/
def hmacReference (cfg : EngineCfg) (K m : Bytes) : Bytes :=
  hashOf cfg (hmacOpad cfg K ++ hashOf cfg (hmacIpad cfg K ++ m))

/-- `salt'` of rule R351. -/
def hkdfSalt (salt : Option Bytes) (ikm : Bytes) : Bytes := salt.getD (zeros ikm.length)

/-- `Extract(salt?, ikm)` (rule R351). -/
def hkdfExtractReference (cfg : EngineCfg) (salt : Option Bytes) (ikm : Bytes) : Bytes :=
  hmacReference cfg (hkdfSalt salt ikm) ikm

/-- `T(i)` (rule R352). -/
def hkdfT (cfg : EngineCfg) (prk info : Bytes) : Nat → Bytes
  | 0 => []
  | i + 1 => hmacReference cfg prk (hkdfT cfg prk info i ++ info ++ [BitVec.ofNat 8 (i + 1)])

/-- `Expand(prk, info, length)` (rule R352). -/
def hkdfExpandReference (cfg : EngineCfg) (prk info : Bytes) (length : Nat) : Bytes :=
  ((List.range (ceilDiv length cfg.hashLen)).flatMap fun i => hkdfT cfg prk info (i + 1)).take length

/-- `U_{j+1}(i)` (rule R362). -/
def pbkdf2U (cfg : EngineCfg) (P salt : Bytes) (i : Nat) : Nat → Bytes
  | 0 => hmacReference cfg P (salt ++ beBytes 4 i)
  | j + 1 => hmacReference cfg P (pbkdf2U cfg P salt i j)

/-- `F(i) = U_1(i) ^ … ^ U_c(i)` (rule R362). -/
def pbkdf2F (cfg : EngineCfg) (P salt : Bytes) (c i : Nat) : Bytes :=
  (List.range (c - 1)).foldl (fun F j => xorBytes F (pbkdf2U cfg P salt i (j + 1))) (pbkdf2U cfg P salt i 0)

/-- `PBKDF2(P, salt, c, L)` (rule R362). -/
def pbkdf2Reference (cfg : EngineCfg) (P salt : Bytes) (c L : Nat) : Bytes :=
  ((List.range (ceilDiv L cfg.hashLen)).flatMap fun i => pbkdf2F cfg P salt c (i + 1)).take L

end Sys2Proof.Machine
end

