-- ==== Sys2Proof/Machine/Rules.lean ====
section
/-! DEFINITION. The spec's tables about all commands at once, in the terms the statements use: the opcode table's
masks (30_encoding.md rules R101, R105), the kind matrix (R107), the operand table's outputs (R106), the causes
of each error (60_exceptions.md rules R381 to R383, R388), their priority (R384) and the two reports (R385 to R387).
`exec` does not use this file: it is a second reading of the same commands. -/

namespace Sys2Proof.Machine

/-! ### The opcode table -/

/-- `mask` and `match` of a row of opcode_table.json (rule R101). -/
structure OpcodeRow where
  mask : Word
  val  : Word
  deriving DecidableEq, Repr

/-- A row of format `N`: only the four bits of `ctx` are free (rule R101). -/
def rowN (opcode : Word) : OpcodeRow := ⟨0xFFFFF0FF, opcode⟩

/-- A row of format `F`: the admitted flags are free as well (rules R101, R102). -/
def rowF (opcode flags : Word) : OpcodeRow := ⟨0xFFFFF0FF &&& ~~~(flags <<< 16), opcode⟩

/-- The 36 rows (rule R105). -/
def opcodeRows : List OpcodeRow :=
  [rowN 0x01, ⟨0xFFFF00FF, 0x02⟩, rowN 0x03, rowN 0x04, rowN 0x05, rowN 0x06, rowN 0x07] ++
  [rowN 0x10, rowN 0x11, rowN 0x12, rowN 0x13, rowN 0x14, rowF 0x15 0x0C, rowF 0x16 0x07] ++
  [rowN 0x18, rowN 0x19, rowF 0x1A 0x10, rowF 0x1B 0x10] ++
  [⟨0x00FFF0FF, 0x20⟩, rowN 0x21, rowN 0x22, rowN 0x24, rowN 0x25, rowN 0x26, rowN 0x28, rowN 0x29] ++
  [rowN 0x2A, rowN 0x2B, rowN 0x2C, rowN 0x2D, rowN 0x30, rowN 0x31] ++
  [rowF 0x40 0x02, rowF 0x41 0x04, rowF 0x42 0x06, rowF 0x43 0x10]

/-- `w & mask = match`: the word spells the row's command (rule R101). -/
def OpcodeRow.spells (r : OpcodeRow) (w : Word) : Bool := w &&& r.mask == r.val

/-! ### Kinds -/

/-- The columns of the kind matrix (rule R107). -/
inductive Kind
  | empty | md | sha3 | xof | blake2b | hmac | hkdf | pbkdf2
  deriving DecidableEq, Repr

/-- The column an object stands in (rule R107). -/
def Obj.kind : Obj → Kind
  | .empty => .empty
  | .hash (.md _) => .md
  | .hash (.sponge e) => if e.cfg.isXof then .xof else .sha3
  | .hash (.blake _) => .blake2b
  | .hmac _ => .hmac
  | .hkdf _ => .hkdf
  | .pbkdf2 .. => .pbkdf2

/-- The kinds with a mark in the command's row of the kind matrix; for `CLONE` of the source (rule R107). -/
def acceptedKinds : Instr → List Kind
  | .newSha1 _ | .newSha256 _ | .newSha512 _ | .newSha3 _ | .newShake _ | .newCshake .. | .newBlake2b .. | .newPbkdf2 .. =>
    [.empty, .md, .sha3, .xof, .blake2b, .hmac, .hkdf, .pbkdf2]
  | .clone .. | .reset _ | .dispose _ | .getalg _ | .gethlen _ | .getblen _ =>
    [.md, .sha3, .xof, .blake2b, .hmac, .hkdf, .pbkdf2]
  | .gethf _ => [.hmac]
  | .wrapHmac _ => [.md, .sha3, .xof, .blake2b]
  | .wrapHkdf _ | .wrapPbkdf2 .. => [.hmac]
  | .updb .. | .upd _ | .updr _ | .fin _ | .fino _ => [.md, .sha3, .xof, .blake2b, .hmac]
  | .finol _ | .out _ | .outl _ | .chl _ | .chrl _ => [.xof]
  | .ch _ | .chr _ => [.md, .sha3, .xof, .blake2b]
  | .minit _ | .mch _ => [.hmac]
  | .hkdfExtract .. | .hkdfExpand .. | .hkdfDerive .. => [.hkdf]
  | .pbkdf2Derive .. => [.pbkdf2]

/-- The object of context `c`; `empty` where the instance has no such context. -/
def State.objAt (s : State) (c : CtxId) : Obj := ((s.ctxAt c).map Context.obj).getD .empty

/-- The poison bit of context `c`. -/
def State.poisonAt (s : State) (c : CtxId) : Bool := ((s.ctxAt c).map Context.poison).getD false

/-- A session command, opcode 0x20 and above (rule R387). -/
def isSession : Instr → Bool
  | .updb .. | .upd _ | .updr _ | .fin _ | .fino _ | .finol _ | .out _ | .outl _ => true
  | .ch _ | .chr _ | .chl _ | .chrl _ | .minit _ | .mch _ => true
  | .hkdfExtract .. | .hkdfExpand .. | .hkdfDerive .. | .pbkdf2Derive .. => true
  | .reset _ | .clone .. | .dispose _ | .getalg _ | .gethlen _ | .getblen _ | .gethf _ => false
  | .newSha1 _ | .newSha256 _ | .newSha512 _ | .newSha3 _ | .newShake _ | .newCshake .. | .newBlake2b .. => false
  | .wrapHmac _ | .wrapHkdf _ | .wrapPbkdf2 .. | .newPbkdf2 .. => false

/-- `WRAP.HMAC`, `WRAP.HKDF`, `WRAP.PBKDF2`. -/
def isWrap : Instr → Bool
  | .wrapHmac _ | .wrapHkdf _ | .wrapPbkdf2 .. => true
  | .updb .. | .upd _ | .updr _ | .fin _ | .fino _ | .finol _ | .out _ | .outl _ => false
  | .ch _ | .chr _ | .chl _ | .chrl _ | .minit _ | .mch _ => false
  | .hkdfExtract .. | .hkdfExpand .. | .hkdfDerive .. | .pbkdf2Derive .. => false
  | .reset _ | .clone .. | .dispose _ | .getalg _ | .gethlen _ | .getblen _ | .gethf _ => false
  | .newSha1 _ | .newSha256 _ | .newSha512 _ | .newSha3 _ | .newShake _ | .newCshake .. | .newBlake2b .. => false
  | .newPbkdf2 .. => false

/-- Any of the eight `NEW.` opcodes. -/
def isNew : Instr → Bool
  | .newSha1 _ | .newSha256 _ | .newSha512 _ | .newSha3 _ | .newShake _ | .newCshake .. | .newBlake2b .. => true
  | .newPbkdf2 .. => true
  | .wrapHmac _ | .wrapHkdf _ | .wrapPbkdf2 .. => false
  | .updb .. | .upd _ | .updr _ | .fin _ | .fino _ | .finol _ | .out _ | .outl _ => false
  | .ch _ | .chr _ | .chl _ | .chrl _ | .minit _ | .mch _ => false
  | .hkdfExtract .. | .hkdfExpand .. | .hkdfDerive .. | .pbkdf2Derive .. => false
  | .reset _ | .clone .. | .dispose _ | .getalg _ | .gethlen _ | .getblen _ | .gethf _ => false

/-! ### Causes of errors -/

/-- Every cause of `IllegalCommand` a decoded command can have (rule R388): a context index out of range, a kind
without a mark, `CLONE` onto its own source. -/
def illegal (i : Instr) (s : State) : Bool :=
  match i with
  | .clone d src =>
    decide (d.val ≥ s.nctx) || decide (src.val ≥ s.nctx) || decide (d = src) ||
      !((acceptedKinds i).contains (s.objAt src).kind)
  | i => decide (i.target.val ≥ s.nctx) || !((acceptedKinds i).contains (s.objAt i.target).kind)

/-- Is the object a sponge in its squeezing phase? -/
def Obj.squeezing : Obj → Bool
  | .hash (.sponge e) => e.squeezing
  | .hash (.md _) | .hash (.blake _) | .empty | .hmac _ | .hkdf _ | .pbkdf2 .. => false

/-- Is the object an HMAC with `init = false`? -/
def Obj.uninitialised : Obj → Bool
  | .hmac M => !M.init
  | .hash _ | .empty | .hkdf _ | .pbkdf2 .. => false

/-- Every cause of `StateError` (rule R383). -/
def stateError (i : Instr) (s : State) : Bool :=
  match i with
  | .clone _ src => s.poisonAt src
  | .updb c _ | .upd c | .updr c => s.poisonAt c || (s.objAt c).uninitialised || (s.objAt c).squeezing
  | .fin c | .fino c => s.poisonAt c || (s.objAt c).uninitialised
  | i => (isSession i || isWrap i) && s.poisonAt i.target

/-- Every cause of `InvalidParameter` (rule R381). -/
def parameterError (i : Instr) (s : State) : Bool :=
  let p := s.reg.param0.toInt
  match i with
  | .newSha3 _ => !([224, 256, 384, 512].contains p)
  | .newShake _ | .newCshake .. => !([128, 256].contains p)
  | .newBlake2b _ keyp saltp auxp =>
    decide (p < 1) || decide (p > 64) || (keyp && decide (s.reg.keySize.toNat > 64)) ||
      (saltp && decide (s.reg.saltSize.toNat ≠ 16)) || (auxp && decide (s.reg.auxSize.toNat ≠ 16))
  | .hkdfExpand c _ =>
    decide (s.reg.keySize.toNat < (s.objAt c).hashLen) || decide (p < 0) || decide (p > 255 * ((s.objAt c).hashLen : Int))
  | .hkdfDerive c _ _ => decide (p < 0) || decide (p > 255 * ((s.objAt c).hashLen : Int))
  | .pbkdf2Derive .. => decide (p < 0)
  | .reset _ | .clone .. | .dispose _ | .getalg _ | .gethlen _ | .getblen _ | .gethf _ => false
  | .newSha1 _ | .newSha256 _ | .newSha512 _ | .wrapHmac _ | .wrapHkdf _ | .wrapPbkdf2 .. | .newPbkdf2 .. => false
  | .updb .. | .upd _ | .updr _ | .fin _ | .fino _ | .finol _ | .out _ | .outl _ => false
  | .ch _ | .chr _ | .chl _ | .chrl _ | .minit _ | .mch _ | .hkdfExtract .. => false

/-- "(mem)" of rule R382: the buffer is not inside operand memory. -/
def State.outsideMemory (s : State) (base size : Word) : Bool := decide (base.toNat + size.toNat > s.memsz.toNat)

/-- `SRC` (mem). -/
def State.srcOutside (s : State) : Bool := s.outsideMemory s.reg.srcBase s.reg.srcSize
/-- `SRC` (mem), then `SRC_START + SRC_LEN > SRC_SIZE`. -/
def State.rangeOutside (s : State) : Bool :=
  s.srcOutside || decide (s.reg.srcStart.toNat + s.reg.srcLen.toNat > s.reg.srcSize.toNat)
/-- `DST` (mem), then an output of `n` bytes at offset `o` past the buffer. -/
def State.outputOutside (s : State) (o n : Nat) : Bool :=
  s.outsideMemory s.reg.dstBase s.reg.dstSize || decide (o + n > s.reg.dstSize.toNat)

/-- Where a command that succeeds writes: the offset in the `DST` buffer and the number of bytes (rules R73, R106);
nothing for a command without output. -/
def outputOf (i : Instr) (s : State) : Option (Nat × Nat) :=
  match i with
  | .fin c | .ch c | .chr c | .mch c | .hkdfExtract c _ => some (0, (s.objAt c).hashLen)
  | .fino c | .out c => some (s.reg.dstStart.toNat, (s.objAt c).hashLen)
  | .finol _ | .outl _ => some (s.reg.dstStart.toNat, s.reg.dstLen.toNat)
  | .chl _ | .chrl _ => some (0, s.reg.dstLen.toNat)
  | .hkdfExpand .. | .hkdfDerive .. | .pbkdf2Derive .. => some (0, s.reg.param0.toInt.toNat)
  | .reset _ | .clone .. | .dispose _ | .getalg _ | .gethlen _ | .getblen _ | .gethf _ => none
  | .newSha1 _ | .newSha256 _ | .newSha512 _ | .newSha3 _ | .newShake _ | .newCshake .. | .newBlake2b .. => none
  | .wrapHmac _ | .wrapHkdf _ | .wrapPbkdf2 .. | .newPbkdf2 .. => none
  | .updb .. | .upd _ | .updr _ | .minit _ => none

/-- The input descriptors out of bounds (rule R382, all rows but those of `DST`). -/
def inputOutside (i : Instr) (s : State) : Bool :=
  match i with
  | .upd _ | .ch _ | .chl _ => s.srcOutside
  | .updr _ | .chr _ | .chrl _ => s.rangeOutside
  | .minit _ => s.outsideMemory s.reg.keyBase s.reg.keySize
  | .mch _ => s.outsideMemory s.reg.keyBase s.reg.keySize || s.srcOutside
  | .newCshake _ namep auxp =>
    (namep && s.outsideMemory s.reg.nameBase s.reg.nameSize) || (auxp && s.outsideMemory s.reg.auxBase s.reg.auxSize)
  | .newBlake2b _ keyp saltp auxp =>
    (keyp && s.outsideMemory s.reg.keyBase s.reg.keySize) || (saltp && s.outsideMemory s.reg.saltBase s.reg.saltSize) ||
      (auxp && s.outsideMemory s.reg.auxBase s.reg.auxSize)
  | .hkdfExtract _ saltp => (saltp && s.outsideMemory s.reg.saltBase s.reg.saltSize) || s.srcOutside
  | .hkdfExpand _ auxp =>
    s.outsideMemory s.reg.keyBase s.reg.keySize || (auxp && s.outsideMemory s.reg.auxBase s.reg.auxSize)
  | .hkdfDerive _ saltp auxp =>
    (saltp && s.outsideMemory s.reg.saltBase s.reg.saltSize) || (auxp && s.outsideMemory s.reg.auxBase s.reg.auxSize) ||
      s.srcOutside
  | .pbkdf2Derive .. => s.srcOutside || s.outsideMemory s.reg.saltBase s.reg.saltSize
  | .reset _ | .clone .. | .dispose _ | .getalg _ | .gethlen _ | .getblen _ | .gethf _ => false
  | .newSha1 _ | .newSha256 _ | .newSha512 _ | .newSha3 _ | .newShake _ => false
  | .wrapHmac _ | .wrapHkdf _ | .wrapPbkdf2 .. | .newPbkdf2 .. => false
  | .updb .. | .fin _ | .fino _ | .finol _ | .out _ | .outl _ => false

/-- Every cause of `RangeError` (rule R382). -/
def rangeError (i : Instr) (s : State) : Bool :=
  inputOutside i s || ((outputOf i s).map fun (o, n) => s.outputOutside o n).getD false

/-- The error code a command reports, 0 for success: the first level that fails decides (rule R384). -/
def errorCode (i : Instr) (s : State) : Nat :=
  if illegal i s then 4
  else if stateError i s then 3
  else if parameterError i s then 1
  else if rangeError i s then 2
  else 0

/-- The codes a command can raise besides 4 (rule R392). -/
def raisable : Instr → List Nat
  | .reset _ | .dispose _ | .getalg _ | .gethlen _ | .getblen _ | .gethf _ => []
  | .newSha1 _ | .newSha256 _ | .newSha512 _ | .newPbkdf2 .. => []
  | .clone .. | .wrapHmac _ | .wrapHkdf _ | .wrapPbkdf2 .. | .updb .. => [3]
  | .newSha3 _ | .newShake _ => [1]
  | .newCshake .. | .newBlake2b .. => [1, 2]
  | .upd _ | .updr _ | .fin _ | .fino _ | .finol _ | .out _ | .outl _ | .ch _ | .chr _ | .chl _ | .chrl _ => [2, 3]
  | .minit _ | .mch _ | .hkdfExtract .. => [2, 3]
  | .hkdfExpand .. | .hkdfDerive .. | .pbkdf2Derive .. => [1, 2, 3]

/-! ### The two reports -/

/-- The report of a success with `RESULT = r` (rule R385). -/
def State.succeeds (s : State) (r : Nat) : State :=
  { s with reg := { s.reg with err := 0, status := 0, result := BitVec.ofNat 32 r } }

/-- The report of a failure with code `k`, which changes nothing else (rules R385, R386). -/
def State.fails (s : State) (k : Nat) : State :=
  { s with reg := { s.reg with
      err := BitVec.ofNat 32 k, status := 2, result := 0, errlog := s.reg.errlog ||| BitVec.ofNat 32 (2 ^ k) } }

/-- The poison bit of context `c` set (rule R387). -/
def State.poisoned (s : State) (c : CtxId) : State :=
  { s with ctx := s.ctx.modify c.val fun x => { x with poison := true } }

/-- The state after a command that fails (rules R385 to R387). -/
def failureOf (i : Instr) (s : State) : State :=
  (if isSession i && errorCode i s != 4 then s.poisoned i.target else s).fails (errorCode i s)

/-- Context `c` holds the object afterwards and is not poisoned. -/
def State.holding (s : State) (c : CtxId) (obj : Obj) : State :=
  { s with ctx := s.ctx.set c.val { obj := obj, poison := false } }

/-- The bytes stand in operand memory from address `DST_BASE + o` on (rule R73). -/
def State.delivering (s : State) (o : Nat) (out : Bytes) : State :=
  { s with mem := s.mem.writeBytes (s.reg.dstBase.toNat + o) out }

/-! ### Objects, kind by kind -/

/-- `GETALG`, `GETHLEN` and `GETBLEN` of a hash engine (the tables of rules R131 and R143). -/
def EngineCfg.metadata : EngineCfg → Nat × Nat × Nat
  | .md .sha1 => (1, 20, 64)
  | .md .sha256 => (2, 32, 64)
  | .md .sha512 => (3, 64, 128)
  | .sponge (.sha3 .b224) => (0x0000E004, 28, 144)
  | .sponge (.sha3 .b256) => (0x00010004, 32, 136)
  | .sponge (.sha3 .b384) => (0x00018004, 48, 104)
  | .sponge (.sha3 .b512) => (0x00020004, 64, 72)
  | .sponge (.shake .b128) => (0x00008005, 32, 168)
  | .sponge (.shake .b256) => (0x00010005, 64, 136)
  | .sponge (.cshake .b128 _ _) => (0x00008006, 32, 168)
  | .sponge (.cshake .b256 _ _) => (0x00010006, 64, 136)
  | .blake cfg => (7 + 256 * (8 * cfg.dlen), cfg.dlen, 128)

/-- The same for any object (rules R131, R143, R336, R357). -/
def Obj.metadata : Obj → Nat × Nat × Nat
  | .empty => (0, 0, 0)
  | .hash e => e.cfg.metadata
  | .hmac M => (8, M.E.cfg.metadata.2)
  | .hkdf M => (9, M.E.cfg.metadata.2)
  | .pbkdf2 M _ => (10, M.E.cfg.metadata.2)

/-- What no command changes in place: the kind, the engine's configuration, the default count (rule R30). -/
def Obj.fixedPart : Obj → Option (Kind × EngineCfg × Nat)
  | .empty => none
  | .hash e => some ((Obj.hash e).kind, e.cfg, 0)
  | .hmac M => some (.hmac, M.E.cfg, 0)
  | .hkdf M => some (.hkdf, M.E.cfg, 0)
  | .pbkdf2 M iters => some (.pbkdf2, M.E.cfg, iters)

/-- The object after appending a byte string (rules R131, R334). -/
def Obj.absorbing (s : Bytes) : Obj → Obj
  | .hash e => .hash (e.absorb s)
  | .hmac M => .hmac { M with E := M.E.absorb s }
  | .empty => .empty
  | .hkdf M => .hkdf M
  | .pbkdf2 M iters => .pbkdf2 M iters

/-- The digest or MAC of an object's session (rules R131, R335). -/
def Obj.digest : Obj → Bytes
  | .hash e => e.finish.1
  | .hmac M => hashOf M.E.cfg (M.opad ++ M.E.finish.1)
  | .empty | .hkdf _ | .pbkdf2 .. => []

/-- The object after its session has been finished (rules R133, R335). -/
def Obj.finished : Obj → Obj
  | .hash e => .hash (Engine.fresh e.cfg)
  | .hmac M => .hmac { M with E := (Engine.fresh M.E.cfg).absorb M.ipad }
  | .empty => .empty
  | .hkdf M => .hkdf M
  | .pbkdf2 M iters => .pbkdf2 M iters

/-- A command that clears the poison bit of its target when it succeeds (rule R31). -/
def clearsPoison (i : Instr) : Bool :=
  match i with
  | .reset _ | .dispose _ | .clone .. => true
  | i => isNew i

/-! ### The host's moves -/

/-- The `RW` registers of rule R21 but `CMD`. -/
def rwOffsets : List Nat :=
  [0x14, 0x18, 0x20, 0x24, 0x28, 0x2C, 0x30, 0x34, 0x38, 0x3C] ++ [0x40, 0x44, 0x48, 0x4C, 0x50, 0x54, 0x58, 0x5C]

/-- A move the spec gives the host (rules R71, R72, R410; 93 U3, U4). -/
def Event.defined (s : State) : Event → Bool
  | .regWrite offset width _ => width == 4 && offset % 4 == 0 && decide (offset < 256)
  | .regRead offset width => width == 4 && offset % 4 == 0 && decide (offset < 256)
  | .memWrite addr width _ => (width == 1 || width == 2 || width == 4) && decide (addr + width ≤ s.memBytes)
  | .memRead addr width => (width == 1 || width == 2 || width == 4) && decide (addr + width ≤ s.memBytes)
  | .hardReset => true

end Sys2Proof.Machine
end

