-- ==== Sys2Proof/Safety.lean ====
section
/-! DEFINITION. The state invariant: the columns "Invariant" of 10_state.md rules R32 to R37, the HMAC invariant of
44_hmac.md rule R331, the reporting registers' rules R23 to R25, the parameters' ranges of 00_scope.md rule R7 and
the canonical form of operand memory. Every run from a reset state stays inside it; states outside it are reached
by no run. -/

namespace Sys2Proof.Machine

/-- Rule R32: buffer size, zero tail, `bufOff < blockLen` and `byteCount mod blockLen = bufOff`. -/
structure Md.Inv (e : Md) : Prop where
  bufLength : e.buf.length = e.alg.blockLen
  offset    : e.bufOff < e.alg.blockLen
  count     : e.regs.byteCount % e.alg.blockLen = e.bufOff
  zeroTail  : e.buf.drop e.bufOff = zeros (e.alg.blockLen - e.bufOff)

/-- Rule R34: the strings fit their length registers. -/
def SpongeCfg.Inv : SpongeCfg → Prop
  | .sha3 _ => True
  | .shake _ => True
  | .cshake _ N S => N.length < 2 ^ 32 ∧ S.length < 2 ^ 32

/-- Rules R34 and R275: queue size, the bounds of `bitsInQueue` in each phase, the zero tail while absorbing, and
SHA-3 never seen squeezing. -/
structure Sponge.Inv (e : Sponge) : Prop where
  cfg         : e.cfg.Inv
  queueLength : e.queue.length = e.cfg.rateBytes
  wholeBytes  : e.bitsInQueue % 8 = 0
  absorbing   : e.squeezing = false → e.bitsInQueue + 8 ≤ e.cfg.rate ∧
    e.queue.drop (e.bitsInQueue / 8) = zeros (e.cfg.rateBytes - e.bitsInQueue / 8)
  squeezed    : e.squeezing = true → e.bitsInQueue ≤ e.cfg.rate ∧ e.cfg.isXof = true

/-- Rule R35: the immutable fields. -/
structure BlakeCfg.Inv (cfg : BlakeCfg) : Prop where
  dlen : 1 ≤ cfg.dlen ∧ cfg.dlen ≤ 64
  key  : cfg.key.length ≤ 64
  salt : ∀ x, cfg.salt = some x → x.length = 16
  pers : ∀ x, cfg.pers = some x → x.length = 16

/-- Rule R35: buffer size, position and zero tail. -/
structure Blake.Inv (e : Blake) : Prop where
  cfg       : e.cfg.Inv
  bufLength : e.buf.length = 128
  position  : e.pos ≤ 128
  zeroTail  : e.buf.drop e.pos = zeros (128 - e.pos)

/-- The engine's own invariant. -/
def Engine.Inv : Engine → Prop
  | .md e => e.Inv
  | .sponge e => e.Inv
  | .blake e => e.Inv

/-- The configuration is one a construction command can build. -/
def EngineCfg.Inv : EngineCfg → Prop
  | .md _ => True
  | .sponge cfg => cfg.Inv
  | .blake cfg => cfg.Inv

/-- Rules R36 and R331. -/
structure Hmac.Inv (M : Hmac) : Prop where
  engine        : M.E.Inv
  keyLength     : M.key.length < 2 ^ 32
  initialised   : M.init = true → M.ipad = hmacIpad M.cfg M.key ∧ M.opad = hmacOpad M.cfg M.key ∧
    ∃ m, M.E = (Engine.fresh M.cfg).absorb (M.ipad ++ m)
  uninitialised : M.init = false → M.E = Engine.fresh M.cfg ∧ M.key = [] ∧
    M.ipad = zeros M.blockLen ∧ M.opad = zeros M.blockLen

/-- Rules R32 to R37. -/
def Obj.Inv : Obj → Prop
  | .empty => True
  | .hash e => e.Inv
  | .hmac M => M.Inv
  | .hkdf M => M.Inv
  | .pbkdf2 M iters => M.Inv ∧ 1 ≤ iters ∧ iters ≤ 2 ^ 31 - 1

/-- Rule R31: an empty context is not poisoned. -/
structure Context.Inv (x : Context) : Prop where
  obj   : x.obj.Inv
  empty : x.obj = .empty → x.poison = false

/-- Rules R23 to R26 and R385: `ERR` is a code, `STATUS` agrees with it, a failure left no result and its bit in
`ERRLOG`, and no other bit of `ERRLOG` is ever set. -/
structure Regs.Inv (r : Regs) : Prop where
  err    : r.err.toNat ≤ 4
  status : r.status = if r.err = 0 then 0 else 2
  result : r.err ≠ 0 → r.result = 0
  logged : r.err ≠ 0 → r.errlog.getLsbD r.err.toNat = true
  errlog : r.errlog &&& ~~~0x1E = 0

/-- The invariant of the whole state. -/
structure State.Inv (s : State) : Prop where
  reg     : s.reg.Inv
  nctx    : 1 ≤ s.nctx ∧ s.nctx ≤ 16
  memsz   : 1 ≤ s.memBytes
  memory  : s.mem.wf
  within  : s.mem.within s.memBytes
  context : ∀ x ∈ s.ctx, x.Inv

end Sys2Proof.Machine
end

