-- ==== Sys2Proof/WellFormed.lean ====
section
/-! DEFINITION. Which commands name contexts an instance has (30_encoding.md rule R104). Every other
spelling condition of rule R110 level 1 is met by every term of `Instr`, whose fields hold only what the
command admits; the decoder refuses the words that spell no term. -/

namespace Sys2Proof

/-- `ctx`, and for `CLONE` also `ctx2`, is less than `NCTX` (rule R104). -/
def Instr.wellFormed (nctx : Nat) : Instr → Bool
  | .clone d src => decide (d.val < nctx) && decide (src.val < nctx)
  | i => decide (i.target.val < nctx)

end Sys2Proof
end

