-- ==== Sys2Proof/Certificates/Slice0/Obligations.lean ====
section
/-! DEFINITION. The statements about LSC-CORE for the provers, in the order of OBLIGATIONS.json. `errorCode i s` of
Rules is the code the spec's tables give command `i` in state `s`, 0 when no failure condition holds: so the hypothesis
`errorCode i s = 0` speaks of the state and the operands alone. -/

open Sys2Proof Sys2Proof.Machine

/-! ### The command word -/

/-- Decoding the word of a command gives the command back, for every command and every value of its operands
(rules R100 to R102, R105, R115). -/
def Obligations.DecodeOfEncode : Prop :=
  ∀ i : Instr, decode (encode i) = some i

/-- A word that decodes is the word of the command it decodes to: no bit of it is dropped, so no two words spell one
command (rules R100, R101, R110). -/
def Obligations.EncodeOfDecode : Prop :=
  ∀ (w : Word) (i : Instr), decode w = some i → encode i = w

/-- A word decodes exactly when it matches a row of the opcode table, and it matches at most one
(rules R101, R105, R110). -/
def Obligations.DecodeIsTheOpcodeTable : Prop :=
  ∀ w : Word,
    (decode w = none ↔ ∀ r ∈ opcodeRows, r.spells w = false) ∧
    ∀ r ∈ opcodeRows, ∀ r' ∈ opcodeRows, r.spells w = true → r'.spells w = true → r = r'

/-- The worked encodings and the illegal words of rule R117. -/
def Obligations.WorkedEncodings : Prop :=
  decode 0x00000011 = some (.newSha256 0) ∧ decode 0x61000220 = some (.updb 2 0x61) ∧
  decode 0x00000102 = some (.clone 1 0) ∧ decode 0x00003002 = some (.clone 0 3) ∧
  decode 0x00050316 = some (.newBlake2b 3 true false true) ∧ decode 0x00060142 = some (.hkdfDerive 1 true true) ∧
  decode 0x00100043 = some (.pbkdf2Derive 0 true) ∧ decode 0x00000F24 = some (.fin 15) ∧
  decode 0x00000000 = none ∧ decode 0x00000008 = none ∧ decode 0x00001011 = none ∧ decode 0x01000021 = none ∧
  decode 0x00010021 = none ∧ decode 0x00200043 = none

/-! ### Steps -/

/-- A write of a command's word to `CMD` stores the word and executes the command in the same step; `CMD` then reads
the word (rules R22, R136). -/
def Obligations.StepRunsTheDecodedCommand : Prop :=
  ∀ (s : State) (es : List Event) (w : Word) (i : Instr),
    s.pending = .regWrite 0x00 4 w :: es → decode w = some i →
    step s = exec i { s with pending := es, reg := { s.reg with cmd := w } } ∧
    ∀ t, step s = .next t → t.readReg 0x00 = w ∧ t.pending = es

/-- A write to `CMD` of a word that spells no command fails with `IllegalCommand`, changes nothing but the reporting
registers and poisons nothing (rules R110, R111). -/
def Obligations.UndecodableWordFails : Prop :=
  ∀ (s : State) (es : List Event) (w : Word),
    s.pending = .regWrite 0x00 4 w :: es → decode w = none →
    step s = .next (State.fails { s with pending := es, reg := { s.reg with cmd := w } } 4)

/-- A context index not less than `NCTX` fails with `IllegalCommand` and changes nothing else (rule R104). -/
def Obligations.ContextIndexOutOfRange : Prop :=
  ∀ (i : Instr) (s : State), i.wellFormed s.nctx = false → exec i s = .next (s.fails 4)

/-- The host's accesses to `REG`: a write to an `RW` register stores the word and changes nothing else, any other
write is ignored, a read changes nothing; the hardwired registers and the reserved offsets read as the spec says
(rules R21, R28, R71). -/
def Obligations.HostRegisterAccess : Prop :=
  (∀ (s : State) (es : List Event) (offset : Nat) (v : Word),
    offset < 256 → offset % 4 = 0 → offset ≠ 0x00 → s.pending = .regWrite offset 4 v :: es →
    ∃ t, step s = .next t ∧ t.mem = s.mem ∧ t.ctx = s.ctx ∧ t.memsz = s.memsz ∧ t.pending = es ∧
      ∀ o, t.readReg o = if o = offset ∧ offset ∈ rwOffsets then v else s.readReg o) ∧
  (∀ (s : State) (es : List Event) (offset : Nat),
    offset < 256 → offset % 4 = 0 → s.pending = .regRead offset 4 :: es → step s = .next { s with pending := es }) ∧
  (∀ s : State, s.readReg 0x1C = 0x4C534337 ∧ s.readReg 0x60 = BitVec.ofNat 32 s.ctx.length ∧ s.readReg 0x64 = s.memsz ∧
    ∀ o, 0x68 ≤ o → o < 256 → s.readReg o = 0)

/-- The host's accesses to `OPMEM`: 1, 2 or 4 bytes at any alignment, the least significant byte at the lowest
address; every other byte and all other state are as before; a read changes nothing and returns the bytes little-endian
(rule R72). -/
def Obligations.HostMemoryAccess : Prop :=
  (∀ (s : State) (es : List Event) (a n : Nat) (v : Word),
    n ∈ [1, 2, 4] → a + n ≤ s.memBytes → s.pending = .memWrite a n v :: es →
    ∃ t, step s = .next t ∧ (∀ i, i < n → t.mem.read (a + i) = v.extractLsb' (8 * i) 8) ∧
      (∀ x, x < a ∨ a + n ≤ x → t.mem.read x = s.mem.read x) ∧
      t.reg = s.reg ∧ t.ctx = s.ctx ∧ t.memsz = s.memsz ∧ t.pending = es) ∧
  (∀ (s : State) (es : List Event) (a n : Nat),
    n ∈ [1, 2, 4] → a + n ≤ s.memBytes → s.pending = .memRead a n :: es → step s = .next { s with pending := es }) ∧
  (∀ (s : State) (a n i : Nat), n ∈ [1, 2, 4] → i < 4 →
    (s.readMem a n).extractLsb' (8 * i) 8 = if i < n then s.mem.read (a + i) else 0)

/-- The model's choice (log entry 4): a host access the spec does not define stops the run by name. -/
def Obligations.UndefinedHostAccessStops : Prop :=
  (∀ (s : State) (es : List Event) (offset width : Nat) (v : Word), width ≠ 4 ∨ offset % 4 ≠ 0 →
    (s.pending = .regWrite offset width v :: es ∨ s.pending = .regRead offset width :: es) →
    step s = .refused .undefinedRegAccess) ∧
  (∀ (s : State) (es : List Event) (offset : Nat) (v : Word), offset % 4 = 0 → 256 ≤ offset →
    (s.pending = .regWrite offset 4 v :: es ∨ s.pending = .regRead offset 4 :: es) → step s = .fault .noSuchAddress) ∧
  (∀ (s : State) (es : List Event) (a n : Nat) (v : Word), n ∉ [1, 2, 4] →
    (s.pending = .memWrite a n v :: es ∨ s.pending = .memRead a n :: es) → step s = .refused .undefinedMemAccess) ∧
  (∀ (s : State) (es : List Event) (a n : Nat) (v : Word), n ∈ [1, 2, 4] → s.memBytes < a + n →
    (s.pending = .memWrite a n v :: es ∨ s.pending = .memRead a n :: es) → step s = .fault .noSuchAddress)

/-- From every state every move the spec gives the host has a successor: no command hangs, blocks or stops
(rules R6, R389; 93 part 1, "Nothing in this hardware is stuck"). -/
def Obligations.EveryHostMoveHasASuccessor : Prop :=
  ∀ s : State, (∀ e es, s.pending = e :: es → e.defined s = true) → ∃ t, step s = .next t

/-- What hardware reset leaves, and that `State.reset` is such a state (rules R44, R411): every register its reset
value, every context `EMPTY` and not poisoned, every byte of operand memory a free value of a new epoch (log entry 2),
the parameters as they were. -/
def Obligations.HardwareReset : Prop :=
  (∀ (s : State) (es : List Event), s.pending = .hardReset :: es →
    ∃ t, step s = .next t ∧ t.pending = es ∧ t.memsz = s.memsz ∧ t.ctx.length = s.ctx.length ∧
      (∀ x ∈ t.ctx, x = { obj := .empty, poison := false }) ∧
      (∀ o, t.readReg o = if o = 0x1C then 0x4C534337 else if o = 0x60 then BitVec.ofNat 32 s.ctx.length
        else if o = 0x64 then s.memsz else 0) ∧
      t.mem.epoch = s.mem.epoch + 1 ∧ ∀ a, t.mem.read a = Config.unwrittenByte t.mem.epoch a) ∧
  (∀ o, State.reset.readReg o = if o = 0x1C then 0x4C534337 else if o = 0x60 then 4 else if o = 0x64 then 4096 else 0) ∧
  (∀ x ∈ State.reset.ctx, x = { obj := .empty, poison := false }) ∧
  ∀ a, State.reset.mem.read a = Config.unwrittenByte 0 a

/-! ### Errors -/

/-- Every command ends in a next state, and reports the code the tables of causes and the priority order give
(rules R6, R381 to R384, R388). -/
def Obligations.ErrorCodeAndPriority : Prop :=
  ∀ (i : Instr) (s : State), ∃ t, exec i s = .next t ∧ t.reg.err = BitVec.ofNat 32 (errorCode i s)

/-- A failed command changes nothing but the report and possibly one poison bit (rules R385 to R387). -/
def Obligations.FailuresArePrecise : Prop :=
  ∀ (i : Instr) (s : State), errorCode i s ≠ 0 → exec i s = .next (failureOf i s)

/-- What every command writes to the reporting registers (rules R23, R24, R385). -/
def Obligations.ReportingRegisters : Prop :=
  ∀ (i : Instr) (s t : State), exec i s = .next t →
    t.reg.err.toNat ≤ 4 ∧ t.reg.status = (if t.reg.err = 0 then 0 else 2) ∧
    t.reg.errlog = (if t.reg.err = 0 then s.reg.errlog else s.reg.errlog ||| BitVec.ofNat 32 (2 ^ t.reg.err.toNat)) ∧
    (t.reg.err ≠ 0 → t.reg.result = 0) ∧ t.reg.cmd = s.reg.cmd

/-- `ERRLOG` is sticky: a command that fails sets the bit of its code, from 1 to 4; no other command and no other host access
changes it, and hardware reset clears it, so the other bits read 0 (rule R25). -/
def Obligations.ErrlogIsSticky : Prop :=
  State.reset.reg.errlog = 0 ∧ ∀ s t : State, step s = .next t →
    (∀ w es, s.pending = .regWrite 0x00 4 w :: es → t.reg.err.toNat ≤ 4 ∧
      t.reg.errlog = if t.reg.err = 0 then s.reg.errlog else s.reg.errlog ||| BitVec.ofNat 32 (2 ^ t.reg.err.toNat)) ∧
    (∀ es, s.pending = .hardReset :: es → t.reg.errlog = 0) ∧
    ((∀ w es, s.pending ≠ .regWrite 0x00 4 w :: es) → (∀ es, s.pending ≠ .hardReset :: es) →
      t.reg.errlog = s.reg.errlog) ∧
    (s.reg.errlog &&& ~~~0x1E = 0 → t.reg.errlog &&& ~~~0x1E = 0)

/-- The poison bit: which failures set it, what it makes fail, what still succeeds and what clears it (rule R387). -/
def Obligations.PoisonBit : Prop :=
  ∀ (i : Instr) (s : State),
    (isSession i = true → errorCode i s ∈ [1, 2, 3] →
      exec i s = .next ((s.poisoned i.target).fails (errorCode i s))) ∧
    (errorCode i s ≠ 0 → isSession i = false ∨ errorCode i s = 4 → exec i s = .next (s.fails (errorCode i s))) ∧
    (illegal i s = false → isSession i = true ∨ isWrap i = true → s.poisonAt i.target = true →
      exec i s = .next (s.fails 3)) ∧
    (∀ d src, i = .clone d src → illegal i s = false → s.poisonAt src = true → exec i s = .next (s.fails 3)) ∧
    (∀ c, i ∈ [.getalg c, .gethlen c, .getblen c, .gethf c] → illegal i s = false → ∃ r, exec i s = .next (s.succeeds r)) ∧
    (clearsPoison i = true → errorCode i s = 0 → ∃ t, exec i s = .next t ∧ t.poisonAt i.target = false) ∧
    (∀ c, i = .reset c ∨ i = .dispose c → illegal i s = false → errorCode i s = 0)

/-- The poison bit changes in no other way (rule R31). -/
def Obligations.PoisonChangesOnlySo : Prop :=
  ∀ (i : Instr) (s t : State) (c : CtxId), exec i s = .next t →
    (s.poisonAt c = true → t.poisonAt c = false → clearsPoison i = true ∧ i.target = c) ∧
    (s.poisonAt c = false → t.poisonAt c = true → isSession i = true ∧ i.target = c ∧ errorCode i s ∈ [1, 2, 3])

/-- Which codes each group of commands can raise (rule R392). -/
def Obligations.RaisableCodes : Prop :=
  ∀ (i : Instr) (s t : State), exec i s = .next t →
    t.reg.err = 0 ∨ t.reg.err = 4 ∨ ∃ k ∈ raisable i, t.reg.err = BitVec.ofNat 32 k

/-! ### Frames -/

/-- No command writes a parameter or descriptor register or `CMD`, the parameters of the instance or the host's queue:
of the registers only the reporting ones change (rules R27, R29). -/
def Obligations.RegisterFrame : Prop :=
  ∀ (i : Instr) (s t : State), exec i s = .next t →
    t.reg = { s.reg with err := t.reg.err, status := t.reg.status, errlog := t.reg.errlog, result := t.reg.result } ∧
    t.memsz = s.memsz ∧ t.pending = s.pending ∧ t.ctx.length = s.ctx.length

/-- No command changes a byte of operand memory outside the output range `[DST_BASE + o, DST_BASE + o + n)` the operand
table gives it; a command without output, and a failed command, change none (rule R75). -/
def Obligations.MemoryFrame : Prop :=
  ∀ (i : Instr) (s t : State), exec i s = .next t →
    (∀ o n, outputOf i s = some (o, n) → ∀ a,
      a < s.reg.dstBase.toNat + o ∨ s.reg.dstBase.toNat + o + n ≤ a → t.mem.read a = s.mem.read a) ∧
    (outputOf i s = none → ∀ a, t.mem.read a = s.mem.read a) ∧
    (errorCode i s ≠ 0 → ∀ a, t.mem.read a = s.mem.read a)

/-- A command touches no context but its target (rule R30). -/
def Obligations.ContextFrame : Prop :=
  ∀ (i : Instr) (s t : State), exec i s = .next t → ∀ j, j ≠ i.target.val → t.ctx[j]? = s.ctx[j]?

/-- A command's outcome does not depend on a context it does not name: whatever stands there, the rest of the state
after the command is the same, and the context itself is as it was (rule R30). -/
def Obligations.ContextsDoNotInterfere : Prop :=
  ∀ (i : Instr) (s t : State) (j : Nat) (x : Context), j ≠ i.target.val → (∀ d src, i = .clone d src → j ≠ src.val) →
    exec i s = .next t → exec i { s with ctx := s.ctx.set j x } = .next { t with ctx := t.ctx.set j x }

/-- No command but a construction or `DISPOSE` changes a kind, a configuration or a default count (rules R30, R162). -/
def Obligations.ConfigurationIsFixed : Prop :=
  ∀ (i : Instr) (s t : State), isNew i = false → isWrap i = false → (∀ d src, i ≠ .clone d src) → (∀ c, i ≠ .dispose c) →
    exec i s = .next t → ∀ j : Nat, (t.ctx[j]?).map (fun x : Context => x.obj.fixedPart) = (s.ctx[j]?).map (fun x : Context => x.obj.fixedPart)

/-! ### The invariant -/

/-- Every reset state is inside the invariant. -/
def Obligations.ResetIsInsideTheInvariant : Prop :=
  State.reset.Inv ∧ ∀ (nctx : Nat) (memsz : Word) (epoch : Nat) (pending : List Event),
    1 ≤ nctx → nctx ≤ 16 → memsz ≠ 0 → (State.resetWith nctx memsz epoch pending).Inv

/-- Every step keeps the invariant: the invariants of rules R23 to R25, R31, R32, R34 to R37, R275 and R331 and the canonical
form of operand memory. -/
def Obligations.StepKeepsTheInvariant : Prop :=
  ∀ s t : State, s.Inv → step s = .next t → t.Inv

/-! ### The engines -/

/-- Absorption is byte-serial, so every partition of a message into chunks gives the digest of the whole (rule R132). -/
def Obligations.StreamingEquivalence : Prop :=
  (∀ e : Engine, e.absorb [] = e) ∧ (∀ (e : Engine) (a b : Bytes), e.absorb (a ++ b) = (e.absorb a).absorb b) ∧
  ∀ (cfg : EngineCfg) (chunks : List Bytes),
    (chunks.foldl (fun e x => e.absorb x) (Engine.fresh cfg)).finish.1 = hashOf cfg chunks.flatten

/-- `Finish` gives a digest of `hashLen` bytes and exactly the fresh object of the same configuration; absorbing never
changes the configuration, on which alone `hashLen` and `blockLen` depend (rules R131, R133). -/
def Obligations.FinishGivesFresh : Prop :=
  ∀ e : Engine, e.Inv →
    e.finish.1.length = e.cfg.metadata.2.1 ∧ e.finish.2 = Engine.fresh e.cfg ∧
    e.hashLen = e.cfg.metadata.2.1 ∧ e.blockLen = e.cfg.metadata.2.2 ∧ ∀ s, (e.absorb s).cfg = e.cfg

/-- The streaming Merkle–Damgård engine computes the padded hash: the digest of every message is the chaining value
after every block of message and padding (rules R203 to R206, R241). -/
def Obligations.MdEngineComputesThePaddedHash : Prop :=
  ∀ (alg : MdAlg) (m : Bytes), hashOf (.md alg) m = mdReference alg m

/-- The padding: `0x80`, the least number of zeros that leaves room for the length, and the bit length big-endian; the
padded message is whole blocks (rule R205). -/
def Obligations.MdPadding : Prop :=
  ∀ (alg : MdAlg) (L : Nat), ∃ k,
    mdPad alg L = [0x80] ++ zeros k ++ beBytes alg.lenBytes (8 * L % 2 ^ (8 * alg.lenBytes)) ∧
    (L + 1 + k) % alg.blockLen = alg.blockLen - alg.lenBytes ∧
    (∀ k', (L + 1 + k') % alg.blockLen = alg.blockLen - alg.lenBytes → k ≤ k') ∧
    (L + (mdPad alg L).length) % alg.blockLen = 0

/-- The byte counter counts absorbed bytes modulo `2^64`, or `2^128` in two words with a carry; the padding is not counted
(rule R204). -/
def Obligations.MdByteCounter : Prop :=
  (∀ (e : Md) (b : Byte), (e.absorbByte b).regs.byteCount = (e.regs.byteCount + 1) % 2 ^ (8 * e.alg.lenBytes)) ∧
  (∀ (e : Md) (b : Byte), (e.push b).regs.byteCount = e.regs.byteCount) ∧
  ∀ (H : Words8 64) (hi lo : BitVec 64), (MdRegs.sha512 H hi lo).count =
    .sha512 H (if lo = 0xFFFFFFFFFFFFFFFF then hi + 1 else hi) (lo + 1)

/-- SHA-1's compression: whatever words satisfy the schedule's recurrence and whatever working registers go through the
eighty rounds from `H`, the result is the wordwise sum of `H` and the last registers (rules R210, R211). -/
def Obligations.Sha1Compression : Prop :=
  ∀ (H : Words5 32) (block : Bytes) (W : Nat → BitVec 32) (v : Nat → Words5 32),
    (∀ t, t < 16 → W t = BitVec.ofNat 32 (beNat (slice block (4 * t) 4))) →
    (∀ t, 16 ≤ t → t < 80 → W t = (W (t - 3) ^^^ W (t - 8) ^^^ W (t - 14) ^^^ W (t - 16)).rotateLeft 1) →
    v 0 = H →
    (∀ t, t < 80 →
      let x := (v t).h1
      let y := (v t).h2
      let z := (v t).h3
      let f := if t < 20 then (x &&& y) ||| (~~~x &&& z) else if t < 40 then x ^^^ y ^^^ z
        else if t < 60 then (x &&& y) ||| (x &&& z) ||| (y &&& z) else x ^^^ y ^^^ z
      let k : BitVec 32 := if t < 20 then 0x5A827999 else if t < 40 then 0x6ED9EBA1 else if t < 60 then 0x8F1BBCDC
        else 0xCA62C1D6
      v (t + 1) = ⟨(v t).h0.rotateLeft 5 + f + (v t).h4 + k + W t, (v t).h0, (v t).h1.rotateLeft 30, (v t).h2, (v t).h3⟩) →
    compressSha1 H block = ⟨H.h0 + (v 80).h0, H.h1 + (v 80).h1, H.h2 + (v 80).h2, H.h3 + (v 80).h3, H.h4 + (v 80).h4⟩

/-- SHA-256's and SHA-512's compression, in the same form: 64 rounds on 32-bit words, 80 on 64-bit words
(rules R220, R221, R230, R231). -/
def Obligations.Sha2Compression : Prop :=
  (∀ (H : Words8 32) (block : Bytes) (W : Nat → BitVec 32) (v : Nat → Words8 32),
    (∀ t, t < 16 → W t = BitVec.ofNat 32 (beNat (slice block (4 * t) 4))) →
    (∀ t, 16 ≤ t → t < 64 →
      let x := W (t - 2)
      let y := W (t - 15)
      W t = (x.rotateRight 17 ^^^ x.rotateRight 19 ^^^ x >>> 10) + W (t - 7) +
        (y.rotateRight 7 ^^^ y.rotateRight 18 ^^^ y >>> 3) + W (t - 16)) →
    v 0 = H →
    (∀ t, t < 64 →
      let a := (v t).h0
      let b := (v t).h1
      let c := (v t).h2
      let e := (v t).h4
      let f := (v t).h5
      let g := (v t).h6
      let T1 := (v t).h7 + (e.rotateRight 6 ^^^ e.rotateRight 11 ^^^ e.rotateRight 25) + ((e &&& f) ^^^ (~~~e &&& g)) +
        k256.getD t 0 + W t
      let T2 := (a.rotateRight 2 ^^^ a.rotateRight 13 ^^^ a.rotateRight 22) + ((a &&& b) ^^^ (a &&& c) ^^^ (b &&& c))
      v (t + 1) = ⟨T1 + T2, a, b, c, (v t).h3 + T1, e, f, g⟩) →
    Sha2.compress sha256Fns H block = ⟨H.h0 + (v 64).h0, H.h1 + (v 64).h1, H.h2 + (v 64).h2, H.h3 + (v 64).h3,
      H.h4 + (v 64).h4, H.h5 + (v 64).h5, H.h6 + (v 64).h6, H.h7 + (v 64).h7⟩) ∧
  ∀ (H : Words8 64) (block : Bytes) (W : Nat → BitVec 64) (v : Nat → Words8 64),
    (∀ t, t < 16 → W t = BitVec.ofNat 64 (beNat (slice block (8 * t) 8))) →
    (∀ t, 16 ≤ t → t < 80 →
      let x := W (t - 2)
      let y := W (t - 15)
      W t = (x.rotateRight 19 ^^^ x.rotateRight 61 ^^^ x >>> 6) + W (t - 7) +
        (y.rotateRight 1 ^^^ y.rotateRight 8 ^^^ y >>> 7) + W (t - 16)) →
    v 0 = H →
    (∀ t, t < 80 →
      let a := (v t).h0
      let b := (v t).h1
      let c := (v t).h2
      let e := (v t).h4
      let f := (v t).h5
      let g := (v t).h6
      let T1 := (v t).h7 + (e.rotateRight 14 ^^^ e.rotateRight 18 ^^^ e.rotateRight 41) + ((e &&& f) ^^^ (~~~e &&& g)) +
        k512.getD t 0 + W t
      let T2 := (a.rotateRight 28 ^^^ a.rotateRight 34 ^^^ a.rotateRight 39) + ((a &&& b) ^^^ (a &&& c) ^^^ (b &&& c))
      v (t + 1) = ⟨T1 + T2, a, b, c, (v t).h3 + T1, e, f, g⟩) →
    Sha2.compress sha512Fns H block = ⟨H.h0 + (v 80).h0, H.h1 + (v 80).h1, H.h2 + (v 80).h2, H.h3 + (v 80).h3,
      H.h4 + (v 80).h4, H.h5 + (v 80).h5, H.h6 + (v 80).h6, H.h7 + (v 80).h7⟩

/-- Keccak-f is 24 rounds of the five step mappings in order; the mappings lane by lane, in the spec's own direction; the
rotation offsets along the walk that generates them (rules R257 to R259). -/
def Obligations.KeccakStepMappings : Prop :=
  (∀ A : Lanes, roundConstants.length = 24 ∧
    keccakF A = roundConstants.foldl (fun A rc => iota rc (chi (rhoPi (theta A)))) A) ∧
  (∀ (A : Lanes) (rc : Lane) (x y : Fin 5),
    let C := fun j : Nat => lane A j 0 ^^^ lane A j 1 ^^^ lane A j 2 ^^^ lane A j 3 ^^^ lane A j 4
    lane (theta A) x y = lane A x y ^^^ (C ((x + 4) % 5) ^^^ (C ((x + 1) % 5)).rotateLeft 1) ∧
    lane (rhoPi A) y ((2 * x + 3 * y) % 5) = (lane A x y).rotateLeft (rhoOffset x y) ∧
    lane (chi A) x y = lane A x y ^^^ (~~~lane A ((x + 1) % 5) y &&& lane A ((x + 2) % 5) y) ∧
    lane (iota rc A) x y = if x = 0 ∧ y = 0 then lane A 0 0 ^^^ rc else lane A x y) ∧
  rhoOffset 0 0 = 0 ∧ ∀ t, t < 24 →
    let p := Nat.iterate (fun p : Nat × Nat => (p.2, (2 * p.1 + 3 * p.2) % 5)) t (1, 0)
    rhoOffset p.1 p.2 = (t + 1) * (t + 2) / 2 % 64

/-- The sponge engine computes the output stream: after any message and any earlier squeezing, a squeeze reads the stream
where the last one stopped, so chunks of output join up to what one squeeze gives; `Finish` gives the next `hashLen` bytes
and the fresh object (rules R134, R263, R264). -/
def Obligations.SpongeComputesTheStream : Prop :=
  ∀ (cfg : SpongeCfg) (m : Bytes) (k n : Nat),
    let e := (Sponge.fresh cfg).absorb m
    let e' := (e.squeeze k).2
    (e.squeeze n).1 = spongeSegment cfg m 0 n ∧ (e'.squeeze n).1 = spongeSegment cfg m k n ∧
    (e'.squeeze n).2 = (e.squeeze (k + n)).2 ∧
    e.finish = (spongeSegment cfg m 0 cfg.hashLen, Sponge.fresh cfg) ∧
    e'.finish = (spongeSegment cfg m k cfg.hashLen, Sponge.fresh cfg)

/-- A fresh sponge: nothing queued, absorbing; the zero state, unless a customised CSHAKE has absorbed its prefix, which
is whole blocks; without name and customization CSHAKE gives SHAKE's output (rules R254, R267). -/
def Obligations.FreshSponge : Prop :=
  (∀ cfg : SpongeCfg, (Sponge.fresh cfg).cfg = cfg ∧ (Sponge.fresh cfg).queue = zeros cfg.rateBytes ∧
    (Sponge.fresh cfg).bitsInQueue = 0 ∧ (Sponge.fresh cfg).squeezing = false ∧
    (cfg.customised = false → (Sponge.fresh cfg).A = Vector.replicate 25 0)) ∧
  (∀ (b : XofBits) (N S : Bytes), N ≠ [] ∨ S ≠ [] →
    (SpongeCfg.cshake b N S).prefixBytes = bytepad (encodeString N ++ encodeString S) (if b = .b128 then 168 else 136)) ∧
  ∀ (b : XofBits) (m : Bytes) (n : Nat), xofOf (.cshake b [] []) m n = xofOf (.shake b) m n

/-- `left_encode`, `encode_string` and `bytepad` (rule R266). -/
def Obligations.StringEncodings : Prop :=
  (∀ x n : Nat, 1 ≤ n → x < 2 ^ (8 * n) → (∀ n', 1 ≤ n' → x < 2 ^ (8 * n') → n ≤ n') →
    leftEncode x = BitVec.ofNat 8 n :: beBytes n x ∧ beNat (beBytes n x) = x) ∧
  (∀ s : Bytes, encodeString s = leftEncode (8 * s.length) ++ s) ∧
  ∀ (X : Bytes) (w : Nat), 0 < w → ∃ j, bytepad X w = leftEncode w ++ X ++ zeros j ∧ j < w ∧ (bytepad X w).length % w = 0

/-- A fresh BLAKE2b object, field by field; an absent salt or personalization is sixteen zero bytes, an empty key no key
(rules R301, R308, R309). -/
def Obligations.FreshBlake : Prop :=
  (∀ cfg : BlakeCfg, cfg.Inv →
    let e := Blake.fresh cfg
    let salt := cfg.salt.getD (zeros 16)
    let pers := cfg.pers.getD (zeros 16)
    e.cfg = cfg ∧ e.t1 = 0 ∧ e.t0 = 0 ∧
    e.h.h0 = 0x6A09E667F3BCC908 ^^^ BitVec.ofNat 64 (0x01010000 + 256 * cfg.key.length + cfg.dlen) ∧
    e.h.h1 = 0xBB67AE8584CAA73B ∧ e.h.h2 = 0x3C6EF372FE94F82B ∧ e.h.h3 = 0xA54FF53A5F1D36F1 ∧
    e.h.h4 = 0x510E527FADE682D1 ^^^ BitVec.ofNat 64 (leNat (salt.take 8)) ∧
    e.h.h5 = 0x9B05688C2B3E6C1F ^^^ BitVec.ofNat 64 (leNat (salt.drop 8)) ∧
    e.h.h6 = 0x1F83D9ABFB41BD6B ^^^ BitVec.ofNat 64 (leNat (pers.take 8)) ∧
    e.h.h7 = 0x5BE0CD19137E2179 ^^^ BitVec.ofNat 64 (leNat (pers.drop 8)) ∧
    (cfg.key = [] → e.pos = 0 ∧ e.buf = zeros 128) ∧
    (cfg.key ≠ [] → e.pos = 128 ∧ e.buf = cfg.key ++ zeros (128 - cfg.key.length)))

/-- BLAKE2b's mixing function on four different words of the sixteen-word work vector: the two half-rounds with the rotations
32, 24, 16, 63; the other words are as they were (rule R306). -/
def Obligations.BlakeMixing : Prop :=
  ∀ (v : List Lane) (a b c d : Fin 16) (x y : Lane), v.length = 16 → [a, b, c, d].Nodup →
    let w := blakeG v a b c d x y
    let a1 := v.getD a 0 + v.getD b 0 + x
    let d1 := (v.getD d 0 ^^^ a1).rotateRight 32
    let c1 := v.getD c 0 + d1
    let b1 := (v.getD b 0 ^^^ c1).rotateRight 24
    let a2 := a1 + b1 + y
    let d2 := (d1 ^^^ a2).rotateRight 16
    let c2 := c1 + d2
    w.length = 16 ∧ w.getD a 0 = a2 ∧ w.getD d 0 = d2 ∧ w.getD c 0 = c2 ∧ w.getD b 0 = (b1 ^^^ c2).rotateRight 63 ∧
    ∀ i : Fin 16, i ∉ [a, b, c, d] → w.getD i 0 = v.getD i 0

/-- The lazy BLAKE2b engine computes BLAKE2b of the whole message: the key block first, every block but the last
unflagged, the last flagged whatever its length (rules R302, R303, R305, R309). -/
def Obligations.BlakeEngineComputesBlake2b : Prop :=
  ∀ (cfg : BlakeCfg) (m : Bytes), cfg.key.length ≤ 64 → hashOf (.blake cfg) m = blakeReference cfg m

/-! ### The MAC and the KDFs -/

/-- The HMAC controller: after `initialize` with a key and any chunks, `Finish` gives HMAC of the key and the joined
chunks, and leaves exactly the state right after `initialize`; the one-shot form is the same (rules R330, R335, R340). -/
def Obligations.HmacControllerComputesHmac : Prop :=
  ∀ (M : Hmac) (K : Bytes) (chunks : List Bytes),
    (chunks.foldl (fun M x => M.absorb x) (M.initialize K)).finish =
      (hmacReference M.cfg K chunks.flatten, M.initialize K) ∧
    ∀ m, M.compute K m = (hmacReference M.cfg K m, M.initialize K)

/-- A key longer than a block acts as its own digest; a shorter one as itself with zeros appended (rule R340 (c)). -/
def Obligations.HmacKeyLaws : Prop :=
  ∀ (cfg : EngineCfg) (K m : Bytes), cfg.Inv →
    (K.length > cfg.blockLen → hmacReference cfg K m = hmacReference cfg (hashOf cfg K) m) ∧
    ∀ j, K.length + j ≤ cfg.blockLen → hmacReference cfg K m = hmacReference cfg (K ++ zeros j) m

/-- The HKDF controller computes extract and expand, and leaves the owned HMAC keyed with the last key it used
(rules R351, R352, R358). -/
def Obligations.HkdfControllerComputesHkdf : Prop :=
  ∀ (M : Hmac) (salt : Option Bytes) (data prk info : Bytes) (L : Nat), M.cfg.Inv →
    hkdfExtract salt data M = (hkdfExtractReference M.cfg salt data, M.initialize (hkdfSalt salt data)) ∧
    hkdfExpand prk info L M = (hkdfExpandReference M.cfg prk info L, if L = 0 then M else M.initialize prk) ∧
    (hkdfExpandReference M.cfg prk info L).length = L

/-- The PBKDF2 controller, which keys the HMAC once, computes PBKDF2's own formula, and leaves the HMAC keyed with the
password (rules R358, R362, R365). -/
def Obligations.Pbkdf2ControllerComputesPbkdf2 : Prop :=
  ∀ (M : Hmac) (P salt : Bytes) (c L : Nat), 1 ≤ c → M.cfg.Inv →
    pbkdf2Derive P salt c L M = (pbkdf2Reference M.cfg P salt c L, M.initialize P) ∧
    (pbkdf2Reference M.cfg P salt c L).length = L

/-! ### The commands -/

/-- `RESET`, `DISPOSE` and `CLONE`: the freshly initialised object of the same configuration and key, no object, and the
fresh copy; `ERR` and `RESULT` are 0 and nothing else changes (rules R140 to R142, R337, R357). -/
def Obligations.ResetDisposeClone : Prop :=
  (∀ (c : CtxId) (s : State), errorCode (.reset c) s = 0 →
    exec (.reset c) s = .next ((s.holding c (s.objAt c).refresh).succeeds 0)) ∧
  (∀ (c : CtxId) (s : State), errorCode (.dispose c) s = 0 →
    exec (.dispose c) s = .next ((s.holding c .empty).succeeds 0)) ∧
  (∀ (d src : CtxId) (s : State), errorCode (.clone d src) s = 0 →
    exec (.clone d src) s = .next ((s.holding d (s.objAt src).refresh).succeeds 0)) ∧
  (∀ e : Engine, (Obj.hash e).refresh = .hash (Engine.fresh e.cfg)) ∧
  (∀ M : Hmac, M.init = true → (Obj.hmac M).refresh = .hmac { M with E := (Engine.fresh M.E.cfg).absorb M.ipad }) ∧
  (∀ M : Hmac, M.init = false → (Obj.hmac M).refresh = .hmac { M with E := Engine.fresh M.E.cfg }) ∧
  ∀ (M N : Hmac) (iters : Nat), (Obj.hmac M).refresh = .hmac N →
    (Obj.hkdf M).refresh = .hkdf N ∧ (Obj.pbkdf2 M iters).refresh = .pbkdf2 N iters

/-- The metadata commands return the numbers of the spec's tables and change nothing else, poisoned or not
(rules R131, R143 to R145, R336, R339, R357). -/
def Obligations.MetadataCommands : Prop :=
  ∀ (c : CtxId) (s : State),
    (errorCode (.getalg c) s = 0 → exec (.getalg c) s = .next (s.succeeds (s.objAt c).metadata.1)) ∧
    (errorCode (.gethlen c) s = 0 → exec (.gethlen c) s = .next (s.succeeds (s.objAt c).metadata.2.1)) ∧
    (errorCode (.getblen c) s = 0 → exec (.getblen c) s = .next (s.succeeds (s.objAt c).metadata.2.2)) ∧
    (∀ M, s.objAt c = .hmac M → errorCode (.gethf c) s = 0 →
      exec (.gethf c) s = .next (s.succeeds M.E.cfg.metadata.1))

/-- `NEW.SHA1`, `NEW.SHA256`, `NEW.SHA512`: the initial chaining value, an empty buffer and a zero count, on any context
there is (rules R201, R202, R207 to R209). -/
def Obligations.NewMd : Prop :=
  ∀ (c : CtxId) (s : State), c.val < s.nctx →
    exec (.newSha1 c) s = .next ((s.holding c (.hash (.md
      { regs := .sha1 ⟨0x67452301, 0xEFCDAB89, 0x98BADCFE, 0x10325476, 0xC3D2E1F0⟩ 0
        buf := zeros 64, bufOff := 0 }))).succeeds 0) ∧
    exec (.newSha256 c) s = .next ((s.holding c (.hash (.md
      { regs := .sha256 ⟨0x6A09E667, 0xBB67AE85, 0x3C6EF372, 0xA54FF53A, 0x510E527F, 0x9B05688C, 0x1F83D9AB, 0x5BE0CD19⟩ 0
        buf := zeros 64, bufOff := 0 }))).succeeds 0) ∧
    exec (.newSha512 c) s = .next ((s.holding c (.hash (.md
      { regs := .sha512 ⟨0x6A09E667F3BCC908, 0xBB67AE8584CAA73B, 0x3C6EF372FE94F82B, 0xA54FF53A5F1D36F1,
          0x510E527FADE682D1, 0x9B05688C2B3E6C1F, 0x1F83D9ABFB41BD6B, 0x5BE0CD19137E2179⟩ 0 0
        buf := zeros 128, bufOff := 0 }))).succeeds 0)

/-- `NEW.SHA3`, `NEW.SHAKE`, `NEW.CSHAKE`: the fresh sponge of the bit length in `PARAM0`, with the strings the flags
supply (rules R270 to R272). -/
def Obligations.NewSponge : Prop :=
  (∀ (c : CtxId) (s : State), errorCode (.newSha3 c) s = 0 → ∃ b : Sha3Bits, s.reg.param0.toInt = b.val ∧
    exec (.newSha3 c) s = .next ((s.holding c (.hash (.sponge (Sponge.fresh (.sha3 b))))).succeeds 0)) ∧
  (∀ (c : CtxId) (s : State), errorCode (.newShake c) s = 0 → ∃ b : XofBits, s.reg.param0.toInt = b.val ∧
    exec (.newShake c) s = .next ((s.holding c (.hash (.sponge (Sponge.fresh (.shake b))))).succeeds 0)) ∧
  ∀ (c : CtxId) (namep auxp : Bool) (s : State), errorCode (.newCshake c namep auxp) s = 0 →
    ∃ b : XofBits, s.reg.param0.toInt = b.val ∧
    exec (.newCshake c namep auxp) s = .next ((s.holding c (.hash (.sponge (Sponge.fresh (.cshake b
      (if namep then s.mem.readBytes s.reg.nameBase.toNat s.reg.nameSize.toNat else [])
      (if auxp then s.mem.readBytes s.reg.auxBase.toNat s.reg.auxSize.toNat else [])))))).succeeds 0)

/-- `NEW.BLAKE2B`: the fresh object of the digest length in `PARAM0`, with the key, salt and personalization the flags
supply (rule R310). -/
def Obligations.NewBlake2b : Prop :=
  ∀ (c : CtxId) (keyp saltp auxp : Bool) (s : State), errorCode (.newBlake2b c keyp saltp auxp) s = 0 →
    exec (.newBlake2b c keyp saltp auxp) s = .next ((s.holding c (.hash (.blake (Blake.fresh
      { dlen := s.reg.param0.toNat
        key := if keyp then s.mem.readBytes s.reg.keyBase.toNat s.reg.keySize.toNat else []
        salt := if saltp then some (s.mem.readBytes s.reg.saltBase.toNat s.reg.saltSize.toNat) else none
        pers := if auxp then some (s.mem.readBytes s.reg.auxBase.toNat s.reg.auxSize.toNat) else none })))).succeeds 0)

/-- `WRAP.HMAC`, `WRAP.HKDF`, `WRAP.PBKDF2` and `NEW.PBKDF2`: an uninitialised HMAC over the fresh engine; a KDF over the
freshly reset HMAC; the default count is `PARAM1`, at least 1, or 10000 (rules R332, R350, R360, R361, R364). -/
def Obligations.WrapAndNewPbkdf2 : Prop :=
  (∀ (c : CtxId) (s : State) (e : Engine), s.objAt c = .hash e → errorCode (.wrapHmac c) s = 0 →
    exec (.wrapHmac c) s = .next ((s.holding c (.hmac
      { E := Engine.fresh e.cfg, init := false, key := []
        ipad := zeros e.cfg.metadata.2.2, opad := zeros e.cfg.metadata.2.2 })).succeeds 0)) ∧
  (∀ (c : CtxId) (s : State) (M N : Hmac), s.objAt c = .hmac M → (Obj.hmac M).refresh = .hmac N →
    errorCode (.wrapHkdf c) s = 0 → exec (.wrapHkdf c) s = .next ((s.holding c (.hkdf N)).succeeds 0)) ∧
  (∀ (c : CtxId) (iterp : Bool) (s : State) (M N : Hmac), s.objAt c = .hmac M → (Obj.hmac M).refresh = .hmac N →
    errorCode (.wrapPbkdf2 c iterp) s = 0 → exec (.wrapPbkdf2 c iterp) s =
      .next ((s.holding c (.pbkdf2 N (if iterp then (max 1 s.reg.param1.toInt).toNat else 10000))).succeeds 0)) ∧
  ∀ (c : CtxId) (iterp : Bool) (s : State), c.val < s.nctx →
    exec (.newPbkdf2 c iterp) s = .next ((s.holding c (.pbkdf2
      { E := .md (Md.fresh .sha1), init := false, key := [], ipad := zeros 64, opad := zeros 64 }
      (if iterp then (max 1 s.reg.param1.toInt).toNat else 10000))).succeeds 0)

/-- `UPDB`, `UPD`, `UPDR`: the byte, the whole `SRC` buffer or its range is appended to the session of the hash engine or of
the engine inside the HMAC (rules R150 to R152, R334). -/
def Obligations.UpdateCommands : Prop :=
  ∀ (c : CtxId) (s : State),
    (∀ b, errorCode (.updb c b) s = 0 →
      exec (.updb c b) s = .next ((s.holding c ((s.objAt c).absorbing [b])).succeeds 0)) ∧
    (errorCode (.upd c) s = 0 → exec (.upd c) s = .next ((s.holding c ((s.objAt c).absorbing
      (s.mem.readBytes s.reg.srcBase.toNat s.reg.srcSize.toNat))).succeeds 0)) ∧
    (errorCode (.updr c) s = 0 → exec (.updr c) s = .next ((s.holding c ((s.objAt c).absorbing
      (s.mem.readBytes (s.reg.srcBase.toNat + s.reg.srcStart.toNat) s.reg.srcLen.toNat))).succeeds 0))

/-- `FIN` and `FINO`: the digest or MAC is written at offset 0 or `DST_START`, the hash engine is fresh or the HMAC primed
again, and `RESULT` is `hashLen` (rules R153, R154, R335). -/
def Obligations.FinalCommands : Prop :=
  ∀ (c : CtxId) (s : State),
    (errorCode (.fin c) s = 0 → exec (.fin c) s = .next
      (((s.delivering 0 (s.objAt c).digest).holding c (s.objAt c).finished).succeeds (s.objAt c).metadata.2.1)) ∧
    (errorCode (.fino c) s = 0 → exec (.fino c) s = .next
      (((s.delivering s.reg.dstStart.toNat (s.objAt c).digest).holding c (s.objAt c).finished).succeeds
        (s.objAt c).metadata.2.1))

/-- `OUT`, `OUTL` and `FINOL` on an XOF: the next `hashLen` or `DST_LEN` bytes of the stream at offset `DST_START`; the session
goes on squeezing, or ends (rules R155 to R157). -/
def Obligations.XofOutputCommands : Prop :=
  ∀ (c : CtxId) (s : State) (e : Sponge), s.objAt c = .hash (.sponge e) →
    (errorCode (.out c) s = 0 → exec (.out c) s = .next
      (((s.delivering s.reg.dstStart.toNat (e.squeeze (e.cfg.bits / 4)).1).holding c
        (.hash (.sponge (e.squeeze (e.cfg.bits / 4)).2))).succeeds (e.cfg.bits / 4))) ∧
    (errorCode (.outl c) s = 0 → exec (.outl c) s = .next
      (((s.delivering s.reg.dstStart.toNat (e.squeeze s.reg.dstLen.toNat).1).holding c
        (.hash (.sponge (e.squeeze s.reg.dstLen.toNat).2))).succeeds s.reg.dstLen.toNat)) ∧
    (errorCode (.finol c) s = 0 → exec (.finol c) s = .next
      (((s.delivering s.reg.dstStart.toNat (e.squeeze s.reg.dstLen.toNat).1).holding c
        (.hash (.sponge (Sponge.fresh e.cfg)))).succeeds s.reg.dstLen.toNat))

/-- `CH` and `CHR`: the digest of the `SRC` buffer or its range under the context's configuration at offset 0 of `DST`; the
context is unchanged (rules R133, R158, R159). -/
def Obligations.ComputeHashCommands : Prop :=
  ∀ (c : CtxId) (s : State) (e : Engine), s.objAt c = .hash e →
    (errorCode (.ch c) s = 0 → exec (.ch c) s = .next
      ((s.delivering 0 (hashOf e.cfg (s.mem.readBytes s.reg.srcBase.toNat s.reg.srcSize.toNat))).succeeds
        e.cfg.metadata.2.1)) ∧
    (errorCode (.chr c) s = 0 → exec (.chr c) s = .next
      ((s.delivering 0 (hashOf e.cfg
        (s.mem.readBytes (s.reg.srcBase.toNat + s.reg.srcStart.toNat) s.reg.srcLen.toNat))).succeeds e.cfg.metadata.2.1))

/-- `CHL` and `CHRL` on an XOF: the first `DST_LEN` bytes of the output stream of the `SRC` buffer or its range at offset 0 of
`DST`; the context is unchanged (rules R134, R160, R161, R263). -/
def Obligations.ComputeXofCommands : Prop :=
  ∀ (c : CtxId) (s : State) (e : Sponge), s.objAt c = .hash (.sponge e) →
    (errorCode (.chl c) s = 0 → exec (.chl c) s = .next
      ((s.delivering 0 (spongeSegment e.cfg (s.mem.readBytes s.reg.srcBase.toNat s.reg.srcSize.toNat) 0
        s.reg.dstLen.toNat)).succeeds s.reg.dstLen.toNat)) ∧
    (errorCode (.chrl c) s = 0 → exec (.chrl c) s = .next
      ((s.delivering 0 (spongeSegment e.cfg
        (s.mem.readBytes (s.reg.srcBase.toNat + s.reg.srcStart.toNat) s.reg.srcLen.toNat) 0
        s.reg.dstLen.toNat)).succeeds s.reg.dstLen.toNat))

/-- `MINIT` and `MCH`: the key and its pads are stored and the engine primed with the inner pad; `MCH` also writes HMAC of the
key and the `SRC` buffer (rules R330, R333, R338). -/
def Obligations.MacCommands : Prop :=
  ∀ (c : CtxId) (s : State) (M : Hmac), s.objAt c = .hmac M →
    let K := s.mem.readBytes s.reg.keyBase.toNat s.reg.keySize.toNat
    let keyed : Hmac :=
      { E := (Engine.fresh M.E.cfg).absorb (hmacIpad M.E.cfg K), init := true, key := K
        ipad := hmacIpad M.E.cfg K, opad := hmacOpad M.E.cfg K }
    (errorCode (.minit c) s = 0 → exec (.minit c) s = .next ((s.holding c (.hmac keyed)).succeeds 0)) ∧
    (errorCode (.mch c) s = 0 → exec (.mch c) s = .next
      (((s.delivering 0 (hmacReference M.E.cfg K (s.mem.readBytes s.reg.srcBase.toNat s.reg.srcSize.toNat))).holding c
        (.hmac keyed)).succeeds M.E.cfg.metadata.2.1))

/-- `HKDF.EXTRACT`, `HKDF.EXPAND`, `HKDF.DERIVE`: the PRK or the output of the requested length at offset 0 of `DST`; the owned
HMAC is left keyed with the last key used (rules R351 to R355, R358). -/
def Obligations.HkdfCommands : Prop :=
  ∀ (c : CtxId) (saltp auxp : Bool) (s : State) (M : Hmac), s.objAt c = .hkdf M →
    let salt := if saltp then some (s.mem.readBytes s.reg.saltBase.toNat s.reg.saltSize.toNat) else none
    let info := if auxp then s.mem.readBytes s.reg.auxBase.toNat s.reg.auxSize.toNat else []
    let src := s.mem.readBytes s.reg.srcBase.toNat s.reg.srcSize.toNat
    let prk := s.mem.readBytes s.reg.keyBase.toNat s.reg.keySize.toNat
    let L := s.reg.param0.toNat
    let extracted := hkdfExtractReference M.E.cfg salt src
    (errorCode (.hkdfExtract c saltp) s = 0 → exec (.hkdfExtract c saltp) s = .next
      (((s.delivering 0 extracted).holding c (.hkdf (M.initialize (hkdfSalt salt src)))).succeeds
        M.E.cfg.metadata.2.1)) ∧
    (errorCode (.hkdfExpand c auxp) s = 0 → exec (.hkdfExpand c auxp) s = .next
      (((s.delivering 0 (hkdfExpandReference M.E.cfg prk info L)).holding c
        (.hkdf (if L = 0 then M else M.initialize prk))).succeeds L)) ∧
    (errorCode (.hkdfDerive c saltp auxp) s = 0 → exec (.hkdfDerive c saltp auxp) s = .next
      (((s.delivering 0 (hkdfExpandReference M.E.cfg extracted info L)).holding c
        (.hkdf (M.initialize (if L = 0 then hkdfSalt salt src else extracted)))).succeeds L))

/-- `PBKDF2.DERIVE`: the derived key of the requested length at offset 0 of `DST`, with the count of `PARAM1`, at least 1, or
the object's own; the owned HMAC is left keyed with the password (rules R358, R362 to R364). -/
def Obligations.Pbkdf2DeriveCommand : Prop :=
  ∀ (c : CtxId) (iterp : Bool) (s : State) (M : Hmac) (iters : Nat), s.objAt c = .pbkdf2 M iters →
    errorCode (.pbkdf2Derive c iterp) s = 0 →
    let P := s.mem.readBytes s.reg.srcBase.toNat s.reg.srcSize.toNat
    let salt := s.mem.readBytes s.reg.saltBase.toNat s.reg.saltSize.toNat
    let count := if iterp then (max 1 s.reg.param1.toInt).toNat else iters
    exec (.pbkdf2Derive c iterp) s = .next
      (((s.delivering 0 (pbkdf2Reference M.E.cfg P salt count s.reg.param0.toNat)).holding c
        (.pbkdf2 (M.initialize P) iters)).succeeds s.reg.param0.toNat)
end

