-- ==== Sys2Proof/Laws/Engine.lean ====
section
/-! SUPPORT. The engines' small laws: absorption is byte-serial, and no operation changes the configuration
(40_engine_contract.md rules R131, R132; 10_state.md rule R30). -/

namespace Sys2Proof.Machine

@[simp] theorem zeros_length (n : Nat) : (zeros n).length = n := by simp [zeros]

@[simp] theorem beBytes_length (n v : Nat) : (beBytes n v).length = n := by simp [beBytes]

@[simp] theorem leBytes_length (n v : Nat) : (leBytes n v).length = n := by simp [leBytes]

@[simp] theorem xorByte_length (b : Byte) (s : Bytes) : (xorByte b s).length = s.length := by simp [xorByte]

theorem slice_length (s : Bytes) (a n : Nat) : (slice s a n).length = min n (s.length - a) := by
  simp [slice]

/-! ### Keccak lanes -/

/-- Reading a lane of a state given lane by lane (rule R251). -/
@[simp] theorem lane_lanesOf (f : Nat → Nat → Lane) (x y : Nat) : lane (lanesOf f) x y = f (x % 5) (y % 5) := by
  have h : x % 5 + 5 * (y % 5) < 25 := by omega
  have hx : (x % 5 + 5 * (y % 5)) / 5 = y % 5 := by omega
  simp [lane, lanesOf, Vector.getD, Array.getD, h, hx]

/-! ### Merkle–Damgård -/

@[simp] theorem Md.absorb_nil (e : Md) : e.absorb [] = e := rfl

theorem Md.absorb_cons (e : Md) (b : Byte) (s : Bytes) : e.absorb (b :: s) = (e.absorbByte b).absorb s := rfl

theorem Md.absorb_append (e : Md) (a b : Bytes) : e.absorb (a ++ b) = (e.absorb a).absorb b := List.foldl_append

@[simp] theorem MdRegs.compress_alg (r : MdRegs) (block : Bytes) : (r.compress block).alg = r.alg := by
  cases r <;> simp [MdRegs.compress, MdRegs.alg]

@[simp] theorem MdRegs.count_alg (r : MdRegs) : r.count.alg = r.alg := by
  cases r <;> simp [MdRegs.count, MdRegs.alg]

@[simp] theorem Md.push_alg (e : Md) (b : Byte) : (e.push b).alg = e.alg := by
  unfold Md.push
  dsimp only
  split <;> simp [Md.alg]

@[simp] theorem Md.absorbByte_alg (e : Md) (b : Byte) : (e.absorbByte b).alg = e.alg := by
  have := e.push_alg b
  simpa [Md.absorbByte, Md.alg] using this

@[simp] theorem Md.absorb_alg (e : Md) (s : Bytes) : (e.absorb s).alg = e.alg := by
  induction s generalizing e with
  | nil => rfl
  | cons b s ih => simp [Md.absorb_cons, ih]

@[simp] theorem Md.fresh_alg (alg : MdAlg) : (Md.fresh alg).alg = alg := by
  cases alg <;> rfl

/-! ### Sponge -/

@[simp] theorem Sponge.absorb_nil (e : Sponge) : e.absorb [] = e := rfl

theorem Sponge.absorb_cons (e : Sponge) (b : Byte) (s : Bytes) : e.absorb (b :: s) = (e.absorbByte b).absorb s := rfl

theorem Sponge.absorb_append (e : Sponge) (a b : Bytes) : e.absorb (a ++ b) = (e.absorb a).absorb b :=
  List.foldl_append

@[simp] theorem Sponge.absorbByte_cfg (e : Sponge) (b : Byte) : (e.absorbByte b).cfg = e.cfg := by
  unfold Sponge.absorbByte
  dsimp only
  split <;> simp [Sponge.xorQueueAndPermute]

@[simp] theorem Sponge.absorbByte_squeezing (e : Sponge) (b : Byte) : (e.absorbByte b).squeezing = e.squeezing := by
  unfold Sponge.absorbByte
  dsimp only
  split <;> simp [Sponge.xorQueueAndPermute]

@[simp] theorem Sponge.absorb_cfg (e : Sponge) (s : Bytes) : (e.absorb s).cfg = e.cfg := by
  induction s generalizing e with
  | nil => rfl
  | cons b s ih => simp [Sponge.absorb_cons, ih]

@[simp] theorem Sponge.absorb_squeezing (e : Sponge) (s : Bytes) : (e.absorb s).squeezing = e.squeezing := by
  induction s generalizing e with
  | nil => rfl
  | cons b s ih => simp [Sponge.absorb_cons, ih]

@[simp] theorem Sponge.fresh_cfg (cfg : SpongeCfg) : (Sponge.fresh cfg).cfg = cfg := by simp [Sponge.fresh]

@[simp] theorem Sponge.fresh_squeezing (cfg : SpongeCfg) : (Sponge.fresh cfg).squeezing = false := by
  simp [Sponge.fresh]

@[simp] theorem Sponge.padAndSwitch_cfg (e : Sponge) : e.padAndSwitch.cfg = e.cfg := by
  simp [Sponge.padAndSwitch, Sponge.extract, Sponge.xorQueueAndPermute]

@[simp] theorem Sponge.padAndSwitch_squeezing (e : Sponge) : e.padAndSwitch.squeezing = true := by
  simp [Sponge.padAndSwitch, Sponge.extract]

@[simp] theorem Sponge.refill_cfg (e : Sponge) : e.refill.cfg = e.cfg := by
  unfold Sponge.refill
  split <;> simp [Sponge.extract]

@[simp] theorem Sponge.refill_squeezing (e : Sponge) : e.refill.squeezing = e.squeezing := by
  unfold Sponge.refill
  split <;> simp [Sponge.extract]

@[simp] theorem Sponge.squeezeLoop_cfg (n : Nat) (e : Sponge) : (Sponge.squeezeLoop n e).2.cfg = e.cfg := by
  induction n generalizing e with
  | zero => rfl
  | succ n ih => simp [Sponge.squeezeLoop, ih]

@[simp] theorem Sponge.squeezeLoop_squeezing (n : Nat) (e : Sponge) :
    (Sponge.squeezeLoop n e).2.squeezing = e.squeezing := by
  induction n generalizing e with
  | zero => rfl
  | succ n ih => simp [Sponge.squeezeLoop, ih]

@[simp] theorem Sponge.squeezeLoop_length (n : Nat) (e : Sponge) : (Sponge.squeezeLoop n e).1.length = n := by
  induction n generalizing e with
  | zero => rfl
  | succ n ih => simp [Sponge.squeezeLoop, ih]

@[simp] theorem Sponge.squeeze_cfg (e : Sponge) (n : Nat) : (e.squeeze n).2.cfg = e.cfg := by
  unfold Sponge.squeeze
  split <;> simp

@[simp] theorem Sponge.squeeze_squeezing (e : Sponge) (n : Nat) : (e.squeeze n).2.squeezing = true := by
  unfold Sponge.squeeze
  split <;> simp [*]

@[simp] theorem Sponge.squeeze_length (e : Sponge) (n : Nat) : (e.squeeze n).1.length = n := by
  simp [Sponge.squeeze]

/-! ### BLAKE2b -/

@[simp] theorem Blake.absorb_nil (e : Blake) : e.absorb [] = e := rfl

theorem Blake.absorb_cons (e : Blake) (b : Byte) (s : Bytes) : e.absorb (b :: s) = (e.absorbByte b).absorb s := rfl

theorem Blake.absorb_append (e : Blake) (a b : Bytes) : e.absorb (a ++ b) = (e.absorb a).absorb b := List.foldl_append

@[simp] theorem Blake.flush_cfg (e : Blake) : e.flush.cfg = e.cfg := by
  unfold Blake.flush
  split <;> simp [Blake.advance]

@[simp] theorem Blake.absorbByte_cfg (e : Blake) (b : Byte) : (e.absorbByte b).cfg = e.cfg := by
  simp [Blake.absorbByte]

@[simp] theorem Blake.absorb_cfg (e : Blake) (s : Bytes) : (e.absorb s).cfg = e.cfg := by
  induction s generalizing e with
  | nil => rfl
  | cons b s ih => simp [Blake.absorb_cons, ih]

/-! ### The contract -/

@[simp] theorem Engine.absorb_nil (e : Engine) : e.absorb [] = e := by
  cases e <;> rfl

theorem Engine.absorb_append (e : Engine) (a b : Bytes) : e.absorb (a ++ b) = (e.absorb a).absorb b := by
  cases e <;> simp [Engine.absorb, Md.absorb_append, Sponge.absorb_append, Blake.absorb_append]

@[simp] theorem Engine.absorb_cfg (e : Engine) (s : Bytes) : (e.absorb s).cfg = e.cfg := by
  cases e <;> simp [Engine.absorb, Engine.cfg]

@[simp] theorem Engine.fresh_cfg (cfg : EngineCfg) : (Engine.fresh cfg).cfg = cfg := by
  cases cfg <;> simp [Engine.fresh, Engine.cfg, Blake.fresh]

@[simp] theorem Hmac.absorb_cfg (M : Hmac) (s : Bytes) : (M.absorb s).cfg = M.cfg := by
  simp [Hmac.absorb, Hmac.cfg]

@[simp] theorem Hmac.initialize_cfg (M : Hmac) (K : Bytes) : (M.initialize K).cfg = M.cfg := by
  simp [Hmac.initialize, Hmac.cfg]

@[simp] theorem Hmac.wrap_cfg (cfg : EngineCfg) : (Hmac.wrap cfg).cfg = cfg := by
  simp [Hmac.wrap, Hmac.cfg]

end Sys2Proof.Machine
end

