-- ==== Sys2Proof/Laws/Memory.lean ====
section
/-! SUPPORT. Operand memory: read after write, writes leave every other byte alone, and every operation keeps the
canonical form and the address range (20_memory.md rules R72 to R75; log entry 2). -/

namespace Sys2Proof.Machine

/-- The cell written is the one read back. -/
theorem lookupCell_insertCell_same (a : Nat) (b : Byte) (cells : List Host.Cell) :
    lookupCell (insertCell a b cells) a = some b := by
  induction cells with
  | nil => simp [insertCell, lookupCell]
  | cons x cells ih =>
    obtain ⟨a', b'⟩ := x
    simp only [insertCell]
    split
    · simp [lookupCell]
    · split
      · simp [lookupCell]
      · simp only [lookupCell]
        rw [if_neg (by assumption)]
        exact ih

/-- Every other cell is as before. -/
theorem lookupCell_insertCell_other {a x : Nat} (h : x ≠ a) (b : Byte) (cells : List Host.Cell) :
    lookupCell (insertCell a b cells) x = lookupCell cells x := by
  induction cells with
  | nil => simp [insertCell, lookupCell, h]
  | cons y cells ih =>
    obtain ⟨a', b'⟩ := y
    simp only [insertCell]
    split
    · simp [lookupCell, h]
    · split
      · rename_i h1 h2
        subst h2
        simp [lookupCell, h]
      · simp only [lookupCell, ih]

/-- The addresses listed after a write. -/
theorem mem_insertCell {a : Nat} {b : Byte} {cells : List Host.Cell} {x : Host.Cell} (h : x ∈ insertCell a b cells) :
    x = (a, b) ∨ x ∈ cells := by
  induction cells with
  | nil => simpa [insertCell] using h
  | cons y cells ih =>
    obtain ⟨a', b'⟩ := y
    simp only [insertCell] at h
    split at h
    · simpa using h
    · split at h
      · rcases List.mem_cons.1 h with h | h
        · exact .inl h
        · exact .inr (List.mem_cons_of_mem _ h)
      · rcases List.mem_cons.1 h with h | h
        · exact .inr (h ▸ List.mem_cons_self)
        · exact (ih h).imp_right (List.mem_cons_of_mem _)

/-- A write keeps the addresses strictly rising. -/
theorem insertCell_pairwise {a : Nat} {b : Byte} {cells : List Host.Cell}
    (h : cells.Pairwise fun x y => x.1 < y.1) : (insertCell a b cells).Pairwise fun x y => x.1 < y.1 := by
  induction cells with
  | nil => simp [insertCell]
  | cons y cells ih =>
    obtain ⟨a', b'⟩ := y
    rw [List.pairwise_cons] at h
    simp only [insertCell]
    split
    · rename_i hlt
      refine List.pairwise_cons.2 ⟨fun x hx => ?_, List.pairwise_cons.2 h⟩
      rcases List.mem_cons.1 hx with rfl | hx
      · exact hlt
      · exact Nat.lt_trans hlt (h.1 x hx)
    · split
      · rename_i h1 h2
        subst h2
        exact List.pairwise_cons.2 h
      · rename_i h1 h2
        refine List.pairwise_cons.2 ⟨fun x hx => ?_, ih h.2⟩
        rcases mem_insertCell hx with rfl | hx
        · exact Nat.lt_of_le_of_ne (Nat.le_of_not_lt h1) (Ne.symm h2)
        · exact h.1 x hx

@[simp] theorem Memory.write_epoch (m : Memory) (a : Nat) (b : Byte) : (m.write a b).epoch = m.epoch := rfl

/-- Read after write, same address. -/
@[simp] theorem Memory.read_write_same (m : Memory) (a : Nat) (b : Byte) : (m.write a b).read a = b := by
  simp [Memory.read, Memory.write, lookupCell_insertCell_same]

/-- Read after write, another address. -/
theorem Memory.read_write_other (m : Memory) {a x : Nat} (h : x ≠ a) (b : Byte) : (m.write a b).read x = m.read x := by
  simp [Memory.read, Memory.write, lookupCell_insertCell_other h]

@[simp] theorem Memory.writeBytes_nil (m : Memory) (a : Nat) : m.writeBytes a [] = m := rfl

@[simp] theorem Memory.writeBytes_epoch (m : Memory) (a : Nat) (s : Bytes) : (m.writeBytes a s).epoch = m.epoch := by
  induction s generalizing m a with
  | nil => rfl
  | cons b s ih => simp [Memory.writeBytes, ih]

/-- A write of a byte string leaves every byte outside it alone. -/
theorem Memory.read_writeBytes_outside (m : Memory) (a : Nat) (s : Bytes) {x : Nat} (h : x < a ∨ a + s.length ≤ x) :
    (m.writeBytes a s).read x = m.read x := by
  induction s generalizing m a with
  | nil => rfl
  | cons b s ih =>
    simp only [List.length_cons] at h
    rw [Memory.writeBytes, ih _ _ (by omega), Memory.read_write_other _ (by omega)]

/-- A write of a byte string is read back byte by byte. -/
theorem Memory.read_writeBytes_inside (m : Memory) (a : Nat) (s : Bytes) {i : Nat} (h : i < s.length) :
    (m.writeBytes a s).read (a + i) = s[i] := by
  induction s generalizing m a i with
  | nil => simp at h
  | cons b s ih =>
    cases i with
    | zero =>
      rw [Memory.writeBytes, Memory.read_writeBytes_outside _ _ _ (by omega)]
      simp
    | succ i =>
      have := ih (m.write a b) (a + 1) (i := i) (by simpa using h)
      rw [Memory.writeBytes, show a + (i + 1) = a + 1 + i by omega, this]
      simp

@[simp] theorem Memory.readBytes_length (m : Memory) (a n : Nat) : (m.readBytes a n).length = n := by
  simp [Memory.readBytes]

/-- A byte string written is read back whole. -/
theorem Memory.readBytes_writeBytes (m : Memory) (a : Nat) (s : Bytes) :
    (m.writeBytes a s).readBytes a s.length = s := by
  apply List.ext_getElem (by simp)
  intro i h1 h2
  simp [Memory.readBytes, Memory.read_writeBytes_inside m a s h2]

/-- A write of one byte keeps the canonical form. -/
theorem Memory.write_wf {m : Memory} (h : m.wf) (a : Nat) (b : Byte) : (m.write a b).wf := insertCell_pairwise h

/-- A write of a byte string keeps the canonical form. -/
theorem Memory.writeBytes_wf {m : Memory} (h : m.wf) (a : Nat) (s : Bytes) : (m.writeBytes a s).wf := by
  induction s generalizing m a with
  | nil => exact h
  | cons b s ih => exact ih (Memory.write_wf h a b) _

/-- A write below the end of operand memory lists no address past it. -/
theorem Memory.writeBytes_within {m : Memory} {n : Nat} (h : m.within n) (a : Nat) (s : Bytes) (hs : a + s.length ≤ n) :
    (m.writeBytes a s).within n := by
  induction s generalizing m a with
  | nil => exact h
  | cons b s ih =>
    simp only [List.length_cons] at hs
    refine ih (fun x hx => ?_) _ (by omega)
    rcases mem_insertCell hx with rfl | hx
    · show a < n
      omega
    · exact h x hx

/-- Reset memory has the canonical form. -/
theorem Memory.reset_wf : State.reset.mem.wf := List.Pairwise.nil

end Sys2Proof.Machine
end

