-- ==== Sys2Proof/Laws/State.lean ====
section
/-! SUPPORT. What each named update of the state leaves in each field: one lemma per field per update. -/

namespace Sys2Proof.Machine

@[simp] theorem writeMem_reg (s : State) (a : Nat) (out : Bytes) : (s.writeMem a out).reg = s.reg := rfl
@[simp] theorem writeMem_memsz (s : State) (a : Nat) (out : Bytes) : (s.writeMem a out).memsz = s.memsz := rfl
@[simp] theorem writeMem_mem (s : State) (a : Nat) (out : Bytes) : (s.writeMem a out).mem = s.mem.writeBytes a out := rfl
@[simp] theorem writeMem_ctx (s : State) (a : Nat) (out : Bytes) : (s.writeMem a out).ctx = s.ctx := rfl
@[simp] theorem writeMem_pending (s : State) (a : Nat) (out : Bytes) : (s.writeMem a out).pending = s.pending := rfl

@[simp] theorem output_reg (s : State) (o : Nat) (out : Bytes) : (s.output o out).reg = s.reg := rfl
@[simp] theorem output_memsz (s : State) (o : Nat) (out : Bytes) : (s.output o out).memsz = s.memsz := rfl
@[simp] theorem output_mem (s : State) (o : Nat) (out : Bytes) : (s.output o out).mem = s.mem.writeBytes (s.dst.base + o) out := rfl
@[simp] theorem output_ctx (s : State) (o : Nat) (out : Bytes) : (s.output o out).ctx = s.ctx := rfl
@[simp] theorem output_pending (s : State) (o : Nat) (out : Bytes) : (s.output o out).pending = s.pending := rfl

@[simp] theorem setCtx_reg (s : State) (c : CtxId) (x : Context) : (s.setCtx c x).reg = s.reg := rfl
@[simp] theorem setCtx_memsz (s : State) (c : CtxId) (x : Context) : (s.setCtx c x).memsz = s.memsz := rfl
@[simp] theorem setCtx_mem (s : State) (c : CtxId) (x : Context) : (s.setCtx c x).mem = s.mem := rfl
@[simp] theorem setCtx_ctx (s : State) (c : CtxId) (x : Context) : (s.setCtx c x).ctx = s.ctx.set c.val x := rfl
@[simp] theorem setCtx_pending (s : State) (c : CtxId) (x : Context) : (s.setCtx c x).pending = s.pending := rfl

@[simp] theorem setObj_reg (s : State) (c : CtxId) (obj : Obj) : (s.setObj c obj).reg = s.reg := rfl
@[simp] theorem setObj_memsz (s : State) (c : CtxId) (obj : Obj) : (s.setObj c obj).memsz = s.memsz := rfl
@[simp] theorem setObj_mem (s : State) (c : CtxId) (obj : Obj) : (s.setObj c obj).mem = s.mem := rfl
@[simp] theorem setObj_ctx (s : State) (c : CtxId) (obj : Obj) : (s.setObj c obj).ctx = s.ctx.set c.val { obj := obj, poison := false } := rfl
@[simp] theorem setObj_pending (s : State) (c : CtxId) (obj : Obj) : (s.setObj c obj).pending = s.pending := rfl

@[simp] theorem holding_reg (s : State) (c : CtxId) (obj : Obj) : (s.holding c obj).reg = s.reg := rfl
@[simp] theorem holding_memsz (s : State) (c : CtxId) (obj : Obj) : (s.holding c obj).memsz = s.memsz := rfl
@[simp] theorem holding_mem (s : State) (c : CtxId) (obj : Obj) : (s.holding c obj).mem = s.mem := rfl
@[simp] theorem holding_ctx (s : State) (c : CtxId) (obj : Obj) : (s.holding c obj).ctx = s.ctx.set c.val { obj := obj, poison := false } := rfl
@[simp] theorem holding_pending (s : State) (c : CtxId) (obj : Obj) : (s.holding c obj).pending = s.pending := rfl

@[simp] theorem delivering_reg (s : State) (o : Nat) (out : Bytes) : (s.delivering o out).reg = s.reg := rfl
@[simp] theorem delivering_memsz (s : State) (o : Nat) (out : Bytes) : (s.delivering o out).memsz = s.memsz := rfl
@[simp] theorem delivering_mem (s : State) (o : Nat) (out : Bytes) : (s.delivering o out).mem = s.mem.writeBytes (s.reg.dstBase.toNat + o) out := rfl
@[simp] theorem delivering_ctx (s : State) (o : Nat) (out : Bytes) : (s.delivering o out).ctx = s.ctx := rfl
@[simp] theorem delivering_pending (s : State) (o : Nat) (out : Bytes) : (s.delivering o out).pending = s.pending := rfl

@[simp] theorem poisoned_reg (s : State) (c : CtxId) : (s.poisoned c).reg = s.reg := rfl
@[simp] theorem poisoned_memsz (s : State) (c : CtxId) : (s.poisoned c).memsz = s.memsz := rfl
@[simp] theorem poisoned_mem (s : State) (c : CtxId) : (s.poisoned c).mem = s.mem := rfl
@[simp] theorem poisoned_ctx (s : State) (c : CtxId) : (s.poisoned c).ctx = s.ctx.modify c.val fun x => { x with poison := true } := rfl
@[simp] theorem poisoned_pending (s : State) (c : CtxId) : (s.poisoned c).pending = s.pending := rfl

@[simp] theorem reportSuccess_memsz (r : Nat) (s : State) : (reportSuccess r s).memsz = s.memsz := rfl
@[simp] theorem reportSuccess_mem (r : Nat) (s : State) : (reportSuccess r s).mem = s.mem := rfl
@[simp] theorem reportSuccess_ctx (r : Nat) (s : State) : (reportSuccess r s).ctx = s.ctx := rfl
@[simp] theorem reportSuccess_pending (r : Nat) (s : State) : (reportSuccess r s).pending = s.pending := rfl
@[simp] theorem reportSuccess_reg_cmd (r : Nat) (s : State) : (reportSuccess r s).reg.cmd = s.reg.cmd := rfl
@[simp] theorem reportSuccess_reg_status (r : Nat) (s : State) : (reportSuccess r s).reg.status = statusWord false := rfl
@[simp] theorem reportSuccess_reg_err (r : Nat) (s : State) : (reportSuccess r s).reg.err = 0 := rfl
@[simp] theorem reportSuccess_reg_errlog (r : Nat) (s : State) : (reportSuccess r s).reg.errlog = s.reg.errlog := rfl
@[simp] theorem reportSuccess_reg_result (r : Nat) (s : State) : (reportSuccess r s).reg.result = BitVec.ofNat 32 r := rfl
@[simp] theorem reportSuccess_reg_param0 (r : Nat) (s : State) : (reportSuccess r s).reg.param0 = s.reg.param0 := rfl
@[simp] theorem reportSuccess_reg_param1 (r : Nat) (s : State) : (reportSuccess r s).reg.param1 = s.reg.param1 := rfl
@[simp] theorem reportSuccess_reg_srcBase (r : Nat) (s : State) : (reportSuccess r s).reg.srcBase = s.reg.srcBase := rfl
@[simp] theorem reportSuccess_reg_srcSize (r : Nat) (s : State) : (reportSuccess r s).reg.srcSize = s.reg.srcSize := rfl
@[simp] theorem reportSuccess_reg_srcStart (r : Nat) (s : State) : (reportSuccess r s).reg.srcStart = s.reg.srcStart := rfl
@[simp] theorem reportSuccess_reg_srcLen (r : Nat) (s : State) : (reportSuccess r s).reg.srcLen = s.reg.srcLen := rfl
@[simp] theorem reportSuccess_reg_dstBase (r : Nat) (s : State) : (reportSuccess r s).reg.dstBase = s.reg.dstBase := rfl
@[simp] theorem reportSuccess_reg_dstSize (r : Nat) (s : State) : (reportSuccess r s).reg.dstSize = s.reg.dstSize := rfl
@[simp] theorem reportSuccess_reg_dstStart (r : Nat) (s : State) : (reportSuccess r s).reg.dstStart = s.reg.dstStart := rfl
@[simp] theorem reportSuccess_reg_dstLen (r : Nat) (s : State) : (reportSuccess r s).reg.dstLen = s.reg.dstLen := rfl
@[simp] theorem reportSuccess_reg_keyBase (r : Nat) (s : State) : (reportSuccess r s).reg.keyBase = s.reg.keyBase := rfl
@[simp] theorem reportSuccess_reg_keySize (r : Nat) (s : State) : (reportSuccess r s).reg.keySize = s.reg.keySize := rfl
@[simp] theorem reportSuccess_reg_saltBase (r : Nat) (s : State) : (reportSuccess r s).reg.saltBase = s.reg.saltBase := rfl
@[simp] theorem reportSuccess_reg_saltSize (r : Nat) (s : State) : (reportSuccess r s).reg.saltSize = s.reg.saltSize := rfl
@[simp] theorem reportSuccess_reg_auxBase (r : Nat) (s : State) : (reportSuccess r s).reg.auxBase = s.reg.auxBase := rfl
@[simp] theorem reportSuccess_reg_auxSize (r : Nat) (s : State) : (reportSuccess r s).reg.auxSize = s.reg.auxSize := rfl
@[simp] theorem reportSuccess_reg_nameBase (r : Nat) (s : State) : (reportSuccess r s).reg.nameBase = s.reg.nameBase := rfl
@[simp] theorem reportSuccess_reg_nameSize (r : Nat) (s : State) : (reportSuccess r s).reg.nameSize = s.reg.nameSize := rfl

@[simp] theorem reportFailure_memsz (e : ErrCode) (s : State) : (reportFailure e s).memsz = s.memsz := rfl
@[simp] theorem reportFailure_mem (e : ErrCode) (s : State) : (reportFailure e s).mem = s.mem := rfl
@[simp] theorem reportFailure_ctx (e : ErrCode) (s : State) : (reportFailure e s).ctx = s.ctx := rfl
@[simp] theorem reportFailure_pending (e : ErrCode) (s : State) : (reportFailure e s).pending = s.pending := rfl
@[simp] theorem reportFailure_reg_cmd (e : ErrCode) (s : State) : (reportFailure e s).reg.cmd = s.reg.cmd := rfl
@[simp] theorem reportFailure_reg_status (e : ErrCode) (s : State) : (reportFailure e s).reg.status = statusWord true := rfl
@[simp] theorem reportFailure_reg_err (e : ErrCode) (s : State) : (reportFailure e s).reg.err = e.word := rfl
@[simp] theorem reportFailure_reg_errlog (e : ErrCode) (s : State) : (reportFailure e s).reg.errlog = s.reg.errlog ||| e.logBit := rfl
@[simp] theorem reportFailure_reg_result (e : ErrCode) (s : State) : (reportFailure e s).reg.result = 0 := rfl
@[simp] theorem reportFailure_reg_param0 (e : ErrCode) (s : State) : (reportFailure e s).reg.param0 = s.reg.param0 := rfl
@[simp] theorem reportFailure_reg_param1 (e : ErrCode) (s : State) : (reportFailure e s).reg.param1 = s.reg.param1 := rfl
@[simp] theorem reportFailure_reg_srcBase (e : ErrCode) (s : State) : (reportFailure e s).reg.srcBase = s.reg.srcBase := rfl
@[simp] theorem reportFailure_reg_srcSize (e : ErrCode) (s : State) : (reportFailure e s).reg.srcSize = s.reg.srcSize := rfl
@[simp] theorem reportFailure_reg_srcStart (e : ErrCode) (s : State) : (reportFailure e s).reg.srcStart = s.reg.srcStart := rfl
@[simp] theorem reportFailure_reg_srcLen (e : ErrCode) (s : State) : (reportFailure e s).reg.srcLen = s.reg.srcLen := rfl
@[simp] theorem reportFailure_reg_dstBase (e : ErrCode) (s : State) : (reportFailure e s).reg.dstBase = s.reg.dstBase := rfl
@[simp] theorem reportFailure_reg_dstSize (e : ErrCode) (s : State) : (reportFailure e s).reg.dstSize = s.reg.dstSize := rfl
@[simp] theorem reportFailure_reg_dstStart (e : ErrCode) (s : State) : (reportFailure e s).reg.dstStart = s.reg.dstStart := rfl
@[simp] theorem reportFailure_reg_dstLen (e : ErrCode) (s : State) : (reportFailure e s).reg.dstLen = s.reg.dstLen := rfl
@[simp] theorem reportFailure_reg_keyBase (e : ErrCode) (s : State) : (reportFailure e s).reg.keyBase = s.reg.keyBase := rfl
@[simp] theorem reportFailure_reg_keySize (e : ErrCode) (s : State) : (reportFailure e s).reg.keySize = s.reg.keySize := rfl
@[simp] theorem reportFailure_reg_saltBase (e : ErrCode) (s : State) : (reportFailure e s).reg.saltBase = s.reg.saltBase := rfl
@[simp] theorem reportFailure_reg_saltSize (e : ErrCode) (s : State) : (reportFailure e s).reg.saltSize = s.reg.saltSize := rfl
@[simp] theorem reportFailure_reg_auxBase (e : ErrCode) (s : State) : (reportFailure e s).reg.auxBase = s.reg.auxBase := rfl
@[simp] theorem reportFailure_reg_auxSize (e : ErrCode) (s : State) : (reportFailure e s).reg.auxSize = s.reg.auxSize := rfl
@[simp] theorem reportFailure_reg_nameBase (e : ErrCode) (s : State) : (reportFailure e s).reg.nameBase = s.reg.nameBase := rfl
@[simp] theorem reportFailure_reg_nameSize (e : ErrCode) (s : State) : (reportFailure e s).reg.nameSize = s.reg.nameSize := rfl

@[simp] theorem succeeds_memsz (s : State) (r : Nat) : (s.succeeds r).memsz = s.memsz := rfl
@[simp] theorem succeeds_mem (s : State) (r : Nat) : (s.succeeds r).mem = s.mem := rfl
@[simp] theorem succeeds_ctx (s : State) (r : Nat) : (s.succeeds r).ctx = s.ctx := rfl
@[simp] theorem succeeds_pending (s : State) (r : Nat) : (s.succeeds r).pending = s.pending := rfl
@[simp] theorem succeeds_reg_cmd (s : State) (r : Nat) : (s.succeeds r).reg.cmd = s.reg.cmd := rfl
@[simp] theorem succeeds_reg_status (s : State) (r : Nat) : (s.succeeds r).reg.status = 0 := rfl
@[simp] theorem succeeds_reg_err (s : State) (r : Nat) : (s.succeeds r).reg.err = 0 := rfl
@[simp] theorem succeeds_reg_errlog (s : State) (r : Nat) : (s.succeeds r).reg.errlog = s.reg.errlog := rfl
@[simp] theorem succeeds_reg_result (s : State) (r : Nat) : (s.succeeds r).reg.result = BitVec.ofNat 32 r := rfl
@[simp] theorem succeeds_reg_param0 (s : State) (r : Nat) : (s.succeeds r).reg.param0 = s.reg.param0 := rfl
@[simp] theorem succeeds_reg_param1 (s : State) (r : Nat) : (s.succeeds r).reg.param1 = s.reg.param1 := rfl
@[simp] theorem succeeds_reg_srcBase (s : State) (r : Nat) : (s.succeeds r).reg.srcBase = s.reg.srcBase := rfl
@[simp] theorem succeeds_reg_srcSize (s : State) (r : Nat) : (s.succeeds r).reg.srcSize = s.reg.srcSize := rfl
@[simp] theorem succeeds_reg_srcStart (s : State) (r : Nat) : (s.succeeds r).reg.srcStart = s.reg.srcStart := rfl
@[simp] theorem succeeds_reg_srcLen (s : State) (r : Nat) : (s.succeeds r).reg.srcLen = s.reg.srcLen := rfl
@[simp] theorem succeeds_reg_dstBase (s : State) (r : Nat) : (s.succeeds r).reg.dstBase = s.reg.dstBase := rfl
@[simp] theorem succeeds_reg_dstSize (s : State) (r : Nat) : (s.succeeds r).reg.dstSize = s.reg.dstSize := rfl
@[simp] theorem succeeds_reg_dstStart (s : State) (r : Nat) : (s.succeeds r).reg.dstStart = s.reg.dstStart := rfl
@[simp] theorem succeeds_reg_dstLen (s : State) (r : Nat) : (s.succeeds r).reg.dstLen = s.reg.dstLen := rfl
@[simp] theorem succeeds_reg_keyBase (s : State) (r : Nat) : (s.succeeds r).reg.keyBase = s.reg.keyBase := rfl
@[simp] theorem succeeds_reg_keySize (s : State) (r : Nat) : (s.succeeds r).reg.keySize = s.reg.keySize := rfl
@[simp] theorem succeeds_reg_saltBase (s : State) (r : Nat) : (s.succeeds r).reg.saltBase = s.reg.saltBase := rfl
@[simp] theorem succeeds_reg_saltSize (s : State) (r : Nat) : (s.succeeds r).reg.saltSize = s.reg.saltSize := rfl
@[simp] theorem succeeds_reg_auxBase (s : State) (r : Nat) : (s.succeeds r).reg.auxBase = s.reg.auxBase := rfl
@[simp] theorem succeeds_reg_auxSize (s : State) (r : Nat) : (s.succeeds r).reg.auxSize = s.reg.auxSize := rfl
@[simp] theorem succeeds_reg_nameBase (s : State) (r : Nat) : (s.succeeds r).reg.nameBase = s.reg.nameBase := rfl
@[simp] theorem succeeds_reg_nameSize (s : State) (r : Nat) : (s.succeeds r).reg.nameSize = s.reg.nameSize := rfl

@[simp] theorem fails_memsz (s : State) (k : Nat) : (s.fails k).memsz = s.memsz := rfl
@[simp] theorem fails_mem (s : State) (k : Nat) : (s.fails k).mem = s.mem := rfl
@[simp] theorem fails_ctx (s : State) (k : Nat) : (s.fails k).ctx = s.ctx := rfl
@[simp] theorem fails_pending (s : State) (k : Nat) : (s.fails k).pending = s.pending := rfl
@[simp] theorem fails_reg_cmd (s : State) (k : Nat) : (s.fails k).reg.cmd = s.reg.cmd := rfl
@[simp] theorem fails_reg_status (s : State) (k : Nat) : (s.fails k).reg.status = 2 := rfl
@[simp] theorem fails_reg_err (s : State) (k : Nat) : (s.fails k).reg.err = BitVec.ofNat 32 k := rfl
@[simp] theorem fails_reg_errlog (s : State) (k : Nat) : (s.fails k).reg.errlog = s.reg.errlog ||| BitVec.ofNat 32 (2 ^ k) := rfl
@[simp] theorem fails_reg_result (s : State) (k : Nat) : (s.fails k).reg.result = 0 := rfl
@[simp] theorem fails_reg_param0 (s : State) (k : Nat) : (s.fails k).reg.param0 = s.reg.param0 := rfl
@[simp] theorem fails_reg_param1 (s : State) (k : Nat) : (s.fails k).reg.param1 = s.reg.param1 := rfl
@[simp] theorem fails_reg_srcBase (s : State) (k : Nat) : (s.fails k).reg.srcBase = s.reg.srcBase := rfl
@[simp] theorem fails_reg_srcSize (s : State) (k : Nat) : (s.fails k).reg.srcSize = s.reg.srcSize := rfl
@[simp] theorem fails_reg_srcStart (s : State) (k : Nat) : (s.fails k).reg.srcStart = s.reg.srcStart := rfl
@[simp] theorem fails_reg_srcLen (s : State) (k : Nat) : (s.fails k).reg.srcLen = s.reg.srcLen := rfl
@[simp] theorem fails_reg_dstBase (s : State) (k : Nat) : (s.fails k).reg.dstBase = s.reg.dstBase := rfl
@[simp] theorem fails_reg_dstSize (s : State) (k : Nat) : (s.fails k).reg.dstSize = s.reg.dstSize := rfl
@[simp] theorem fails_reg_dstStart (s : State) (k : Nat) : (s.fails k).reg.dstStart = s.reg.dstStart := rfl
@[simp] theorem fails_reg_dstLen (s : State) (k : Nat) : (s.fails k).reg.dstLen = s.reg.dstLen := rfl
@[simp] theorem fails_reg_keyBase (s : State) (k : Nat) : (s.fails k).reg.keyBase = s.reg.keyBase := rfl
@[simp] theorem fails_reg_keySize (s : State) (k : Nat) : (s.fails k).reg.keySize = s.reg.keySize := rfl
@[simp] theorem fails_reg_saltBase (s : State) (k : Nat) : (s.fails k).reg.saltBase = s.reg.saltBase := rfl
@[simp] theorem fails_reg_saltSize (s : State) (k : Nat) : (s.fails k).reg.saltSize = s.reg.saltSize := rfl
@[simp] theorem fails_reg_auxBase (s : State) (k : Nat) : (s.fails k).reg.auxBase = s.reg.auxBase := rfl
@[simp] theorem fails_reg_auxSize (s : State) (k : Nat) : (s.fails k).reg.auxSize = s.reg.auxSize := rfl
@[simp] theorem fails_reg_nameBase (s : State) (k : Nat) : (s.fails k).reg.nameBase = s.reg.nameBase := rfl
@[simp] theorem fails_reg_nameSize (s : State) (k : Nat) : (s.fails k).reg.nameSize = s.reg.nameSize := rfl

@[simp] theorem storeCmd_memsz (w : Word) (s : State) : (storeCmd w s).memsz = s.memsz := rfl
@[simp] theorem storeCmd_mem (w : Word) (s : State) : (storeCmd w s).mem = s.mem := rfl
@[simp] theorem storeCmd_ctx (w : Word) (s : State) : (storeCmd w s).ctx = s.ctx := rfl
@[simp] theorem storeCmd_pending (w : Word) (s : State) : (storeCmd w s).pending = s.pending := rfl
@[simp] theorem storeCmd_reg_cmd (w : Word) (s : State) : (storeCmd w s).reg.cmd = w := rfl
@[simp] theorem storeCmd_reg_status (w : Word) (s : State) : (storeCmd w s).reg.status = s.reg.status := rfl
@[simp] theorem storeCmd_reg_err (w : Word) (s : State) : (storeCmd w s).reg.err = s.reg.err := rfl
@[simp] theorem storeCmd_reg_errlog (w : Word) (s : State) : (storeCmd w s).reg.errlog = s.reg.errlog := rfl
@[simp] theorem storeCmd_reg_result (w : Word) (s : State) : (storeCmd w s).reg.result = s.reg.result := rfl
@[simp] theorem storeCmd_reg_param0 (w : Word) (s : State) : (storeCmd w s).reg.param0 = s.reg.param0 := rfl
@[simp] theorem storeCmd_reg_param1 (w : Word) (s : State) : (storeCmd w s).reg.param1 = s.reg.param1 := rfl
@[simp] theorem storeCmd_reg_srcBase (w : Word) (s : State) : (storeCmd w s).reg.srcBase = s.reg.srcBase := rfl
@[simp] theorem storeCmd_reg_srcSize (w : Word) (s : State) : (storeCmd w s).reg.srcSize = s.reg.srcSize := rfl
@[simp] theorem storeCmd_reg_srcStart (w : Word) (s : State) : (storeCmd w s).reg.srcStart = s.reg.srcStart := rfl
@[simp] theorem storeCmd_reg_srcLen (w : Word) (s : State) : (storeCmd w s).reg.srcLen = s.reg.srcLen := rfl
@[simp] theorem storeCmd_reg_dstBase (w : Word) (s : State) : (storeCmd w s).reg.dstBase = s.reg.dstBase := rfl
@[simp] theorem storeCmd_reg_dstSize (w : Word) (s : State) : (storeCmd w s).reg.dstSize = s.reg.dstSize := rfl
@[simp] theorem storeCmd_reg_dstStart (w : Word) (s : State) : (storeCmd w s).reg.dstStart = s.reg.dstStart := rfl
@[simp] theorem storeCmd_reg_dstLen (w : Word) (s : State) : (storeCmd w s).reg.dstLen = s.reg.dstLen := rfl
@[simp] theorem storeCmd_reg_keyBase (w : Word) (s : State) : (storeCmd w s).reg.keyBase = s.reg.keyBase := rfl
@[simp] theorem storeCmd_reg_keySize (w : Word) (s : State) : (storeCmd w s).reg.keySize = s.reg.keySize := rfl
@[simp] theorem storeCmd_reg_saltBase (w : Word) (s : State) : (storeCmd w s).reg.saltBase = s.reg.saltBase := rfl
@[simp] theorem storeCmd_reg_saltSize (w : Word) (s : State) : (storeCmd w s).reg.saltSize = s.reg.saltSize := rfl
@[simp] theorem storeCmd_reg_auxBase (w : Word) (s : State) : (storeCmd w s).reg.auxBase = s.reg.auxBase := rfl
@[simp] theorem storeCmd_reg_auxSize (w : Word) (s : State) : (storeCmd w s).reg.auxSize = s.reg.auxSize := rfl
@[simp] theorem storeCmd_reg_nameBase (w : Word) (s : State) : (storeCmd w s).reg.nameBase = s.reg.nameBase := rfl
@[simp] theorem storeCmd_reg_nameSize (w : Word) (s : State) : (storeCmd w s).reg.nameSize = s.reg.nameSize := rfl

/-- Setting the poison bit touches the context file only. -/
theorem poisonCtx_eq_poisoned (c : CtxId) (s : State) : poisonCtx c s = s.poisoned c := by
  unfold poisonCtx State.poisoned State.ctxAt
  rcases s with ⟨reg, memsz, mem, ctx, pending⟩
  cases h : ctx[c.val]? with
  | none =>
    have hle : ctx.length ≤ c.val := by simpa using h
    simp [List.modify_eq_self hle]
  | some x => simp [State.setCtx, List.modify_eq_set_getElem?, h]

/-- A write to a register other than `CMD` touches the register block only. -/
theorem writeReg_frame (offset : Nat) (v : Word) (s : State) :
    (writeReg offset v s).memsz = s.memsz ∧ (writeReg offset v s).mem = s.mem ∧
      (writeReg offset v s).ctx = s.ctx ∧ (writeReg offset v s).pending = s.pending := by
  unfold writeReg
  split <;> simp

/-- No host write reaches a reporting register (rules R22 to R26). -/
theorem writeReg_report (offset : Nat) (v : Word) (s : State) :
    (writeReg offset v s).reg.err = s.reg.err ∧ (writeReg offset v s).reg.status = s.reg.status ∧
      (writeReg offset v s).reg.errlog = s.reg.errlog ∧ (writeReg offset v s).reg.result = s.reg.result ∧
        (writeReg offset v s).reg.cmd = s.reg.cmd := by
  unfold writeReg
  split <;> simp

end Sys2Proof.Machine
end

