-- ==== Sys2Proof/Laws/Ops.lean ====
section
/-! SUPPORT. What the shared shape of a command can do (40_engine_contract.md rule R136; 60_exceptions.md rules
R384 to R387): everything a proof about a command needs of `named`, `checked` and `finishCommand`. -/

namespace Sys2Proof.Machine

@[simp] theorem finishCommand_ok (session : Bool) (c : CtxId) (s s' : State) (r : Nat) :
    finishCommand session c s (.ok s' r) = .next (reportSuccess r s') := rfl

@[simp] theorem finishCommand_err (session : Bool) (c : CtxId) (s : State) (e : ErrCode) :
    finishCommand session c s (.err e) = .next (takeError session c e s) := rfl

/-- Every command ends in a next state: no fault, no refusal (rule R6). -/
theorem finishCommand_isNext (session : Bool) (c : CtxId) (s : State) (v : Verdict) :
    ∃ t, finishCommand session c s v = .next t := by
  cases v <;> exact ⟨_, rfl⟩

/-- The two ways a command ends (rules R6, R385). -/
theorem finishCommand_next {session : Bool} {c : CtxId} {s t : State} {v : Verdict}
    (h : finishCommand session c s v = .next t) :
    (∃ s' r, v = .ok s' r ∧ t = reportSuccess r s') ∨ ∃ e, v = .err e ∧ t = takeError session c e s := by
  cases v with
  | ok s' r => exact .inl ⟨s', r, rfl, by simpa using h.symm⟩
  | err e => exact .inr ⟨e, rfl, by simpa using h.symm⟩

@[simp] theorem checked_nil (k : Unit → Verdict) : checked [] k = k () := rfl

@[simp] theorem checked_cons_false (e : ErrCode) (cs : List Check) (k : Unit → Verdict) :
    checked ((false, e) :: cs) k = checked cs k := rfl

@[simp] theorem checked_cons_true (e : ErrCode) (cs : List Check) (k : Unit → Verdict) :
    checked ((true, e) :: cs) k = .err e := rfl

/-- The effect is reached exactly when no test fails. -/
theorem checked_of_pass {cs : List Check} (h : ∀ x ∈ cs, x.1 = false) (k : Unit → Verdict) : checked cs k = k () := by
  induction cs with
  | nil => rfl
  | cons x cs ih =>
    obtain ⟨b, e⟩ := x
    have hb : b = false := h _ List.mem_cons_self
    subst hb
    exact ih fun y hy => h y (List.mem_cons_of_mem _ hy)

/-- A success passed every test and is the effect's. -/
theorem checked_ok {cs : List Check} {k : Unit → Verdict} {s' : State} {r : Nat} (h : checked cs k = .ok s' r) :
    (∀ x ∈ cs, x.1 = false) ∧ k () = .ok s' r := by
  induction cs with
  | nil => exact ⟨by simp, h⟩
  | cons x cs ih =>
    obtain ⟨b, e⟩ := x
    cases b with
    | true => simp at h
    | false =>
      obtain ⟨h1, h2⟩ := ih h
      exact ⟨by simpa using h1, h2⟩

/-- A failure is that of a test, or the effect's own. -/
theorem checked_err {cs : List Check} {k : Unit → Verdict} {e : ErrCode} (h : checked cs k = .err e) :
    (true, e) ∈ cs ∨ k () = .err e := by
  induction cs with
  | nil => exact .inr h
  | cons x cs ih =>
    obtain ⟨b, e'⟩ := x
    cases b with
    | true =>
      have : e' = e := by simpa using h
      subst this
      exact .inl List.mem_cons_self
    | false => exact (ih h).imp_left (List.mem_cons_of_mem _)

@[simp] theorem named_none {α : Type} {c : CtxId} {s : State} (accept : Obj → Option α) (k : Bool → α → Verdict)
    (h : s.ctxAt c = none) : named c s accept k = .err .illegalCommand := by
  simp [named, h]

theorem named_some {α : Type} {c : CtxId} {s : State} {x : Context} {a : α} (accept : Obj → Option α)
    (k : Bool → α → Verdict) (h : s.ctxAt c = some x) (ha : accept x.obj = some a) :
    named c s accept k = k x.poison a := by
  simp [named, h, ha]

theorem named_rejected {α : Type} {c : CtxId} {s : State} {x : Context} (accept : Obj → Option α)
    (k : Bool → α → Verdict) (h : s.ctxAt c = some x) (ha : accept x.obj = none) :
    named c s accept k = .err .illegalCommand := by
  simp [named, h, ha]

/-- A success named a context of an accepting kind. -/
theorem named_ok {α : Type} {c : CtxId} {s s' : State} {accept : Obj → Option α} {k : Bool → α → Verdict} {r : Nat}
    (h : named c s accept k = .ok s' r) :
    ∃ x a, s.ctxAt c = some x ∧ accept x.obj = some a ∧ k x.poison a = .ok s' r := by
  unfold named at h
  split at h
  · cases h
  · rename_i x hx
    split at h
    · cases h
    · rename_i a ha
      exact ⟨x, a, hx, ha, h⟩

/-- A failure is that of the kind, or comes after it. -/
theorem named_err {α : Type} {c : CtxId} {s : State} {accept : Obj → Option α} {k : Bool → α → Verdict} {e : ErrCode}
    (h : named c s accept k = .err e) :
    e = .illegalCommand ∨ ∃ x a, s.ctxAt c = some x ∧ accept x.obj = some a ∧ k x.poison a = .err e := by
  unfold named at h
  split at h
  · exact .inl (by simpa using h.symm)
  · rename_i x hx
    split at h
    · exact .inl (by simpa using h.symm)
    · rename_i a ha
      exact .inr ⟨x, a, hx, ha, h⟩

/-- Taking an error touches the reporting registers and at most one poison bit (rules R386, R387, R390). -/
theorem takeError_eq (session : Bool) (c : CtxId) (e : ErrCode) (s : State) :
    takeError session c e s = reportFailure e (if poisons session e then s.poisoned c else s) := by
  unfold takeError
  split <;> simp [poisonCtx_eq_poisoned]

@[simp] theorem takeError_mem (session : Bool) (c : CtxId) (e : ErrCode) (s : State) :
    (takeError session c e s).mem = s.mem := by
  rw [takeError_eq]
  split <;> simp

@[simp] theorem takeError_memsz (session : Bool) (c : CtxId) (e : ErrCode) (s : State) :
    (takeError session c e s).memsz = s.memsz := by
  rw [takeError_eq]
  split <;> simp

@[simp] theorem takeError_pending (session : Bool) (c : CtxId) (e : ErrCode) (s : State) :
    (takeError session c e s).pending = s.pending := by
  rw [takeError_eq]
  split <;> simp

@[simp] theorem takeError_ctx (session : Bool) (c : CtxId) (e : ErrCode) (s : State) :
    (takeError session c e s).ctx = if poisons session e then (s.poisoned c).ctx else s.ctx := by
  rw [takeError_eq]
  split <;> simp

end Sys2Proof.Machine
end

