-- ==== Sys2Proof/Laws/PerInstr.lean ====
section
/-! SUPPORT. A family of statements made per command: what being well-formed says about the context a command names
(30_encoding.md rule R104). -/

namespace Sys2Proof.Laws.ContextInRange

/-- In an instance with `n` contexts a well-formed command names a target the instance has, and the same command is
well-formed in every instance with more (rule R104). -/
def Statement (i : Instr) : Prop :=
  ∀ n m : Nat, n ≤ m → i.wellFormed n = true → i.target.val < n ∧ i.wellFormed m = true

/-- The shape of every command but `CLONE`: well-formed means the target exists. -/
theorem of_target {i : Instr} (h : ∀ n, i.wellFormed n = decide (i.target.val < n)) : Statement i := by
  intro n m hnm hw
  simp only [h, decide_eq_true_eq] at hw ⊢
  omega

theorem reset (c : CtxId) : Statement (.reset c) := of_target fun _ => rfl

theorem clone (d src : CtxId) : Statement (.clone d src) := by
  intro n m hnm hw
  simp only [Instr.wellFormed, Instr.target, Bool.and_eq_true, decide_eq_true_eq] at hw ⊢
  omega

theorem dispose (c : CtxId) : Statement (.dispose c) := of_target fun _ => rfl

theorem getalg (c : CtxId) : Statement (.getalg c) := of_target fun _ => rfl

theorem gethlen (c : CtxId) : Statement (.gethlen c) := of_target fun _ => rfl

theorem getblen (c : CtxId) : Statement (.getblen c) := of_target fun _ => rfl

theorem gethf (c : CtxId) : Statement (.gethf c) := of_target fun _ => rfl

theorem newSha1 (c : CtxId) : Statement (.newSha1 c) := of_target fun _ => rfl

theorem newSha256 (c : CtxId) : Statement (.newSha256 c) := of_target fun _ => rfl

theorem newSha512 (c : CtxId) : Statement (.newSha512 c) := of_target fun _ => rfl

theorem newSha3 (c : CtxId) : Statement (.newSha3 c) := of_target fun _ => rfl

theorem newShake (c : CtxId) : Statement (.newShake c) := of_target fun _ => rfl

theorem newCshake (c : CtxId) (n : Bool) (a : Bool) : Statement (.newCshake c n a) := of_target fun _ => rfl

theorem newBlake2b (c : CtxId) (k : Bool) (sa : Bool) (a : Bool) : Statement (.newBlake2b c k sa a) := of_target fun _ => rfl

theorem wrapHmac (c : CtxId) : Statement (.wrapHmac c) := of_target fun _ => rfl

theorem wrapHkdf (c : CtxId) : Statement (.wrapHkdf c) := of_target fun _ => rfl

theorem wrapPbkdf2 (c : CtxId) (it : Bool) : Statement (.wrapPbkdf2 c it) := of_target fun _ => rfl

theorem newPbkdf2 (c : CtxId) (it : Bool) : Statement (.newPbkdf2 c it) := of_target fun _ => rfl

theorem updb (c : CtxId) (b : Byte) : Statement (.updb c b) := of_target fun _ => rfl

theorem upd (c : CtxId) : Statement (.upd c) := of_target fun _ => rfl

theorem updr (c : CtxId) : Statement (.updr c) := of_target fun _ => rfl

theorem fin (c : CtxId) : Statement (.fin c) := of_target fun _ => rfl

theorem fino (c : CtxId) : Statement (.fino c) := of_target fun _ => rfl

theorem finol (c : CtxId) : Statement (.finol c) := of_target fun _ => rfl

theorem out (c : CtxId) : Statement (.out c) := of_target fun _ => rfl

theorem outl (c : CtxId) : Statement (.outl c) := of_target fun _ => rfl

theorem ch (c : CtxId) : Statement (.ch c) := of_target fun _ => rfl

theorem chr (c : CtxId) : Statement (.chr c) := of_target fun _ => rfl

theorem chl (c : CtxId) : Statement (.chl c) := of_target fun _ => rfl

theorem chrl (c : CtxId) : Statement (.chrl c) := of_target fun _ => rfl

theorem minit (c : CtxId) : Statement (.minit c) := of_target fun _ => rfl

theorem mch (c : CtxId) : Statement (.mch c) := of_target fun _ => rfl

theorem hkdfExtract (c : CtxId) (sa : Bool) : Statement (.hkdfExtract c sa) := of_target fun _ => rfl

theorem hkdfExpand (c : CtxId) (a : Bool) : Statement (.hkdfExpand c a) := of_target fun _ => rfl

theorem hkdfDerive (c : CtxId) (sa : Bool) (a : Bool) : Statement (.hkdfDerive c sa a) := of_target fun _ => rfl

theorem pbkdf2Derive (c : CtxId) (it : Bool) : Statement (.pbkdf2Derive c it) := of_target fun _ => rfl

end Sys2Proof.Laws.ContextInRange
end

