-- ==== Sys2Proof/Laws/Sha.lean ====
section
/-! SUPPORT. The message schedules satisfy the recurrences of 41_md_sha.md rules R210, R220 and R230. -/

namespace Sys2Proof.Machine

/-- A list grown word by word, each new word computed from the words before it: its length, the words it began with, and
that every later word is what the whole list gives. -/
theorem grown_spec {α : Type} (z : α) (f : List α → Nat → α) (init : List α) (k : Nat) (hk : init.length = k)
    (hf : ∀ (t : Nat) (W W' : List α), k ≤ t → (∀ i, i < t → W.getD i z = W'.getD i z) → f W t = f W' t) (n : Nat) :
    let L := (List.range' k n).foldl (fun W t => W ++ [f W t]) init
    L.length = k + n ∧ (∀ i, i < k → L.getD i z = init.getD i z) ∧ ∀ t, k ≤ t → t < k + n → L.getD t z = f L t := by
  induction n with
  | zero => exact ⟨by simpa using hk, fun i _ => rfl, fun t h1 h2 => by omega⟩
  | succ n ih =>
    obtain ⟨h1, h2, h3⟩ := ih
    simp only [List.range'_concat, List.foldl_append, List.foldl_cons, List.foldl_nil, Nat.one_mul]
    generalize (List.range' k n).foldl (fun W t => W ++ [f W t]) init = L at h1 h2 h3
    have before : ∀ i, i < k + n → (L ++ [f L (k + n)]).getD i z = L.getD i z := by
      intro i hi
      simp [List.getElem?_append_left (by omega : i < L.length)]
    refine ⟨by simp [h1]; omega, fun i hi => (before i (by omega)).trans (h2 i hi), fun t ht1 ht2 => ?_⟩
    by_cases ht : t = k + n
    · subst ht
      rw [hf _ _ L ht1 before]
      simp [← h1]
    · rw [before t (by omega), h3 t ht1 (by omega)]
      exact hf _ _ _ ht1 fun i hi => (before i (by omega)).symm

theorem beWords_length (w n : Nat) (block : Bytes) : (beWords w n block).length = n := by simp [beWords]

theorem beWords_getD {w n t : Nat} (h : t < n) (block : Bytes) :
    (beWords w n block).getD t 0 = BitVec.ofNat w (beNat (slice block (w / 8 * t) (w / 8))) := by
  simp [beWords, h]

/-- The 80 words of SHA-1's schedule (rule R210). -/
theorem sha1Schedule_spec (block : Bytes) :
    let W := sha1Schedule block
    W.length = 80 ∧ (∀ t, t < 16 → W.getD t 0 = BitVec.ofNat 32 (beNat (slice block (4 * t) 4))) ∧
    ∀ t, 16 ≤ t → t < 80 →
      W.getD t 0 = rotl (W.getD (t - 3) 0 ^^^ W.getD (t - 8) 0 ^^^ W.getD (t - 14) 0 ^^^ W.getD (t - 16) 0) 1 := by
  obtain ⟨h1, h2, h3⟩ := grown_spec (0 : BitVec 32)
    (fun W t => rotl (W.getD (t - 3) 0 ^^^ W.getD (t - 8) 0 ^^^ W.getD (t - 14) 0 ^^^ W.getD (t - 16) 0) 1)
    (beWords 32 16 block) 16 (beWords_length ..)
    (fun t W W' ht h => by
      rw [h (t - 3) (by omega), h (t - 8) (by omega), h (t - 14) (by omega), h (t - 16) (by omega)]) 64
  exact ⟨h1, fun t ht => (h2 t ht).trans (beWords_getD ht block), h3⟩

/-- The words of a SHA-2 schedule, one for each round constant (rules R220, R230). -/
theorem Sha2.schedule_spec {w : Nat} (p : Sha2 w) (hp : 16 ≤ p.K.length) (block : Bytes) :
    let W := p.schedule block
    W.length = p.K.length ∧ (∀ t, t < 16 → W.getD t 0 = BitVec.ofNat w (beNat (slice block (w / 8 * t) (w / 8)))) ∧
    ∀ t, 16 ≤ t → t < p.K.length →
      W.getD t 0 = p.s1 (W.getD (t - 2) 0) + W.getD (t - 7) 0 + p.s0 (W.getD (t - 15) 0) + W.getD (t - 16) 0 := by
  obtain ⟨h1, h2, h3⟩ := grown_spec (0 : BitVec w)
    (fun W t => p.s1 (W.getD (t - 2) 0) + W.getD (t - 7) 0 + p.s0 (W.getD (t - 15) 0) + W.getD (t - 16) 0)
    (beWords w 16 block) 16 (beWords_length ..)
    (fun t W W' ht h => by
      rw [h (t - 2) (by omega), h (t - 7) (by omega), h (t - 15) (by omega), h (t - 16) (by omega)]) (p.K.length - 16)
  exact ⟨h1.trans (by omega), fun t ht => (h2 t ht).trans (beWords_getD ht block), fun t ht1 ht2 => h3 t ht1 (by omega)⟩

end Sys2Proof.Machine
end

