-- ==== Sys2Proof/Tests/Slice0.lean ====
section
/-! SUPPORT. The model's own tests: the well-formedness smoke, every command's word written out field by field from
30_encoding.md rules R100 to R105, single steps with results from the spec's examples, and for every statement with
hypotheses a concrete state and operands that meet them. -/

namespace Sys2Proof.Tests

open Sys2Proof Sys2Proof.Machine

-- one test at a time: elaborating them all at once takes a thread, and its stack, for each
set_option Elab.async false

/-! ### Well-formedness (rule R104) -/

theorem test_wellFormed_last_context : (Instr.fin 3).wellFormed 4 = true := by decide

theorem test_illFormed_context : (Instr.fin 4).wellFormed 4 = false := by decide

theorem test_illFormed_clone_source : (Instr.clone 0 4).wellFormed 4 = false := by decide

theorem test_illFormed_clone_destination : (Instr.clone 4 0).wellFormed 4 = false := by decide

/-! ### Decoding: `imm8`, `flags`, `ctx2`, `ctx`, `opcode`, from bit 31 down (rules R100, R105) -/

/-- A command word from its five fields, most significant first. -/
def word (imm8 flags : BitVec 8) (ctx2 ctx : BitVec 4) (opcode : BitVec 8) : Word := imm8 ++ flags ++ ctx2 ++ ctx ++ opcode

theorem test_decode_management :
    decode (word 0b00000000 0b00000000 0b0000 0b0101 0b00000001) = some (.reset 5) ∧
    decode (word 0b00000000 0b00000000 0b1001 0b0010 0b00000010) = some (.clone 2 9) ∧
    decode (word 0b00000000 0b00000000 0b0000 0b0001 0b00000011) = some (.dispose 1) ∧
    decode (word 0b00000000 0b00000000 0b0000 0b1111 0b00000100) = some (.getalg 15) ∧
    decode (word 0b00000000 0b00000000 0b0000 0b1000 0b00000101) = some (.gethlen 8) ∧
    decode (word 0b00000000 0b00000000 0b0000 0b0100 0b00000110) = some (.getblen 4) ∧
    decode (word 0b00000000 0b00000000 0b0000 0b0011 0b00000111) = some (.gethf 3) := by decide +kernel

theorem test_decode_md :
    decode (word 0b00000000 0b00000000 0b0000 0b0001 0b00010000) = some (.newSha1 1) ∧
    decode (word 0b00000000 0b00000000 0b0000 0b0010 0b00010001) = some (.newSha256 2) ∧
    decode (word 0b00000000 0b00000000 0b0000 0b0100 0b00010010) = some (.newSha512 4) := by decide +kernel

theorem test_decode_sponge :
    decode (word 0b00000000 0b00000000 0b0000 0b1000 0b00010011) = some (.newSha3 8) ∧
    decode (word 0b00000000 0b00000000 0b0000 0b0001 0b00010100) = some (.newShake 1) ∧
    decode (word 0b00000000 0b00001000 0b0000 0b0110 0b00010101) = some (.newCshake 6 true false) ∧
    decode (word 0b00000000 0b00000100 0b0000 0b0110 0b00010101) = some (.newCshake 6 false true) := by decide +kernel

theorem test_decode_blake2b :
    decode (word 0b00000000 0b00000001 0b0000 0b0011 0b00010110) = some (.newBlake2b 3 true false false) ∧
    decode (word 0b00000000 0b00000010 0b0000 0b0011 0b00010110) = some (.newBlake2b 3 false true false) ∧
    decode (word 0b00000000 0b00000100 0b0000 0b0011 0b00010110) = some (.newBlake2b 3 false false true) := by decide +kernel

theorem test_decode_wrap :
    decode (word 0b00000000 0b00000000 0b0000 0b0001 0b00011000) = some (.wrapHmac 1) ∧
    decode (word 0b00000000 0b00000000 0b0000 0b0010 0b00011001) = some (.wrapHkdf 2) ∧
    decode (word 0b00000000 0b00010000 0b0000 0b0100 0b00011010) = some (.wrapPbkdf2 4 true) ∧
    decode (word 0b00000000 0b00010000 0b0000 0b1000 0b00011011) = some (.newPbkdf2 8 true) ∧
    decode (word 0b00000000 0b00000000 0b0000 0b1000 0b00011011) = some (.newPbkdf2 8 false) := by decide +kernel

theorem test_decode_stream :
    decode (word 0b10000010 0b00000000 0b0000 0b0111 0b00100000) = some (.updb 7 0x82) ∧
    decode (word 0b00000000 0b00000000 0b0000 0b0001 0b00100001) = some (.upd 1) ∧
    decode (word 0b00000000 0b00000000 0b0000 0b0010 0b00100010) = some (.updr 2) ∧
    decode (word 0b00000000 0b00000000 0b0000 0b0100 0b00100100) = some (.fin 4) ∧
    decode (word 0b00000000 0b00000000 0b0000 0b1000 0b00100101) = some (.fino 8) ∧
    decode (word 0b00000000 0b00000000 0b0000 0b0001 0b00100110) = some (.finol 1) ∧
    decode (word 0b00000000 0b00000000 0b0000 0b0010 0b00101000) = some (.out 2) ∧
    decode (word 0b00000000 0b00000000 0b0000 0b0100 0b00101001) = some (.outl 4) ∧
    decode (word 0b00000000 0b00000000 0b0000 0b1000 0b00101010) = some (.ch 8) ∧
    decode (word 0b00000000 0b00000000 0b0000 0b0001 0b00101011) = some (.chr 1) ∧
    decode (word 0b00000000 0b00000000 0b0000 0b0010 0b00101100) = some (.chl 2) ∧
    decode (word 0b00000000 0b00000000 0b0000 0b0100 0b00101101) = some (.chrl 4) := by decide +kernel

theorem test_decode_mac_kdf :
    decode (word 0b00000000 0b00000000 0b0000 0b1000 0b00110000) = some (.minit 8) ∧
    decode (word 0b00000000 0b00000000 0b0000 0b0001 0b00110001) = some (.mch 1) ∧
    decode (word 0b00000000 0b00000010 0b0000 0b0010 0b01000000) = some (.hkdfExtract 2 true) ∧
    decode (word 0b00000000 0b00000100 0b0000 0b0100 0b01000001) = some (.hkdfExpand 4 true) ∧
    decode (word 0b00000000 0b00000010 0b0000 0b1000 0b01000010) = some (.hkdfDerive 8 true false) ∧
    decode (word 0b00000000 0b00000100 0b0000 0b1000 0b01000010) = some (.hkdfDerive 8 false true) ∧
    decode (word 0b00000000 0b00010000 0b0000 0b0001 0b01000011) = some (.pbkdf2Derive 1 true) := by decide +kernel

/-- The words rule R117 and rule R110 call illegal: an unassigned opcode, `ctx2`, `flags` or `imm8` not zero where it must be, a
flag the command does not admit, a reserved flag bit. -/
theorem test_decode_illegal :
    [word 0 0 0 0 0b00000000, word 0 0 0 0 0b00001000, word 0 0 0 0 0b00010111, word 0 0 0 0 0b00100011,
     word 0 0 0 0 0b00100111, word 0 0 0 0 0b11111111, word 0 0 1 0 0b00010001, word 1 0 0 0 0b00100001,
     word 0 1 0 0 0b00100001, word 0 0b00100000 0 0 0b01000011, word 0 0b00000001 0 0 0b01000010,
     word 1 0 1 0 0b00000010, word 0 0 1 0 0b00100000].all (fun w => decide (decode w = none)) = true := by decide +kernel

/-- The table's own numbering gives the same word (rule R100). -/
theorem test_decodeTableWord : decodeTableWord 32 0x61000220 = some (.updb 2 0x61) := by decide +kernel

/-! ### Small states -/

/-- Memory with some bytes at `0x100`, `KEY` bytes at `0x80` and a salt at `0x110`. -/
def mem (src key salt : Bytes) : Memory :=
  ((({ epoch := 0, cells := [] } : Memory).writeBytes 0x100 src).writeBytes 0x80 key).writeBytes 0x110 salt

/-- Descriptors: `SRC` the bytes at `0x100`, `KEY` at `0x80`, `SALT` at `0x110`, 16 bytes of `AUX`, 1 of `NAME`, and `DST` the last 96 of
the 4096 bytes; `PARAM0` is 32 and `PARAM1` is 1. -/
def regs (src key salt : Nat) : Regs :=
  { Regs.reset with
    srcBase := 0x100, srcSize := BitVec.ofNat 32 src, keyBase := 0x80, keySize := BitVec.ofNat 32 key
    saltBase := 0x110, saltSize := BitVec.ofNat 32 salt, auxBase := 0x120, auxSize := 16, nameBase := 0x130, nameSize := 1
    dstBase := 4000, dstSize := 96, param0 := 32, param1 := 1 }

/-- Four contexts, context 0 holding the object, and the operands. -/
def st (obj : Obj) (src : Bytes := []) (key : Bytes := zeros 32) (salt : Bytes := zeros 16) : State :=
  { (State.resetWith 4 4096 0 []).holding 0 obj with
    reg := regs src.length key.length salt.length, mem := mem src key salt }

/-- The same with context 0 poisoned. -/
def poisonedSt (obj : Obj) : State := (st obj).poisoned 0

/-- What a command left: `ERR`, `RESULT` and the first `n` bytes of `DST`. -/
def report (n : Nat) : Host.Outcome State Fault Refusal → Option (Word × Word × Bytes)
  | .next t => some (t.reg.err, t.reg.result, t.mem.readBytes 4000 n)
  | .fault _ | .refused _ => none

/-- What a command left in `ERR`, `RESULT` and the poison bit of context 0. -/
def status : Host.Outcome State Fault Refusal → Option (Word × Word × Bool)
  | .next t => some (t.reg.err, t.reg.result, t.poisonAt 0)
  | .fault _ | .refused _ => none

def sha1 : Obj := .hash (.md (Md.fresh .sha1))
def sha256 : Obj := .hash (.md (Md.fresh .sha256))
def sha512 : Obj := .hash (.md (Md.fresh .sha512))
def sha3 : Obj := .hash (.sponge (Sponge.fresh (.sha3 .b256)))
def shake : Obj := .hash (.sponge (Sponge.fresh (.shake .b128)))
/-- A SHAKE in its squeezing phase, without the work of getting there. -/
def squeezingShake : Obj := .hash (.sponge { Sponge.fresh (.shake .b128) with squeezing := true })
def blake : Obj := .hash (.blake (Blake.fresh { dlen := 32, key := [], salt := none, pers := none }))
def hmacSha1 : Hmac := Hmac.wrap (.md .sha1)
/-- An HMAC marked initialised, without the work of getting there. -/
def keyedHmac : Hmac := { hmacSha1 with init := true }

/-! ### Single steps, results from the spec's examples -/

/-- V1 of 95_test_vectors.md: SHA-1 of nothing. -/
theorem test_fin_sha1 : report 20 (exec (.fin 0) (st sha1)) = some (0, 20,
    [0xDA, 0x39, 0xA3, 0xEE, 0x5E, 0x6B, 0x4B, 0x0D, 0x32, 0x55, 0xBF, 0xEF, 0x95, 0x60, 0x18, 0x90, 0xAF, 0xD8, 0x07, 0x09]) := by decide +kernel

/-- V2: SHA-256 of "abc" (rule R158's own example). -/
theorem test_ch_sha256 : report 32 (exec (.ch 0) (st sha256 [0x61, 0x62, 0x63])) = some (0, 32,
    [0xBA, 0x78, 0x16, 0xBF, 0x8F, 0x01, 0xCF, 0xEA, 0x41, 0x41, 0x40, 0xDE, 0x5D, 0xAE, 0x22, 0x23, 0xB0, 0x03, 0x61, 0xA3, 0x96, 0x17, 0x7A, 0x9C] ++
      [0xB4, 0x10, 0xFF, 0x61, 0xF2, 0x00, 0x15, 0xAD]) := by decide +kernel

/-- 95_test_vectors.md section 2.2: SHA-512 of "abc". -/
theorem test_ch_sha512 : report 64 (exec (.ch 0) (st sha512 [0x61, 0x62, 0x63])) = some (0, 64,
    [0xDD, 0xAF, 0x35, 0xA1, 0x93, 0x61, 0x7A, 0xBA, 0xCC, 0x41, 0x73, 0x49, 0xAE, 0x20, 0x41, 0x31, 0x12, 0xE6, 0xFA, 0x4E, 0x89, 0xA9, 0x7E, 0xA2] ++
      [0x0A, 0x9E, 0xEE, 0xE6, 0x4B, 0x55, 0xD3, 0x9A, 0x21, 0x92, 0x99, 0x2A, 0x27, 0x4F, 0xC1, 0xA8, 0x36, 0xBA, 0x3C, 0x23, 0xA3, 0xFE, 0xEB, 0xBD] ++
      [0x45, 0x4D, 0x44, 0x23, 0x64, 0x3C, 0xE8, 0x0E, 0x2A, 0x9A, 0xC9, 0x4F, 0xA5, 0x4C, 0xA4, 0x9F]) := by decide +kernel

/-- 95_test_vectors.md section 2.4: BLAKE2b of "abc", 32 bytes. -/
theorem test_ch_blake2b : report 32 (exec (.ch 0) (st blake [0x61, 0x62, 0x63])) = some (0, 32,
    [0xBD, 0xDD, 0x81, 0x3C, 0x63, 0x42, 0x39, 0x72, 0x31, 0x71, 0xEF, 0x3F, 0xEE, 0x98, 0x57, 0x9B, 0x94, 0x96, 0x4E, 0x3B, 0xB1, 0xCB, 0x3E, 0x42] ++
      [0x72, 0x62, 0xC8, 0xC0, 0x68, 0xD5, 0x23, 0x19]) := by decide +kernel

/-- V3: HMAC-SHA-1 with a key of 20 bytes 0x0B and the data "Hi There". -/
theorem test_mch : report 20 (exec (.mch 0)
    (st (.hmac hmacSha1) [0x48, 0x69, 0x20, 0x54, 0x68, 0x65, 0x72, 0x65] (List.replicate 20 0x0B))) = some (0, 20,
    [0xB6, 0x17, 0x31, 0x86, 0x55, 0x05, 0x72, 0x64, 0xE2, 0x8B, 0xC0, 0xB6, 0xFB, 0x37, 0x8C, 0x8E, 0xF1, 0x46, 0xBE, 0x00]) := by decide +kernel

/-- V4: PBKDF2 of "password" and "salt", the first of the 32 bytes asked for. -/
theorem test_pbkdf2 : report 20 (exec (.pbkdf2Derive 0 true)
    (st (.pbkdf2 hmacSha1 10000) [0x70, 0x61, 0x73, 0x73, 0x77, 0x6F, 0x72, 0x64] [] [0x73, 0x61, 0x6C, 0x74])) = some (0, 32,
    [0x0C, 0x60, 0xC8, 0x0F, 0x96, 0x1F, 0x0E, 0x71, 0xF3, 0xA9, 0xB5, 0x24, 0xAF, 0x60, 0x12, 0x06, 0x2F, 0xE0, 0x37, 0xA6]) := by decide +kernel

/-- Rules R143 to R145: the metadata of SHA-256, SHAKE-128 and BLAKE2b with 32 bytes. -/
theorem test_metadata :
    status (exec (.getalg 0) (st sha256)) = some (0, 2, false) ∧ status (exec (.getblen 0) (st sha256)) = some (0, 64, false) ∧
    status (exec (.getalg 0) (st shake)) = some (0, 0x8005, false) ∧ status (exec (.gethlen 0) (st shake)) = some (0, 32, false) ∧
    status (exec (.getalg 0) (poisonedSt blake)) = some (0, 0x10007, true) ∧
    status (exec (.gethf 0) (st (.hmac hmacSha1))) = some (0, 1, false) := by decide +kernel

/-- Rule R384's examples of the order between the levels, and rule R387's poison bit. -/
theorem test_priority :
    status (exec (.updr 0) { st squeezingShake with reg := { regs 3 32 16 with srcLen := 4 } }) = some (3, 0, true) ∧
    status (exec (.hkdfExpand 0 false) { st (.hkdf hmacSha1) with reg := { regs 3 32 16 with param0 := -1, dstSize := 0 } }) =
      some (1, 0, true) ∧
    status (exec (.newBlake2b 0 true false false) { st sha1 with reg := { regs 3 32 16 with param0 := 0, keyBase := 4096 } }) =
      some (1, 0, false) ∧
    status (exec (.fin 1) { st sha1 with reg := { regs 3 32 16 with dstSize := 4096 } }) = some (4, 0, false) ∧
    status (exec (.fin 0) { st sha1 with reg := { regs 3 32 16 with dstSize := 19 } }) = some (2, 0, true) ∧
    status (exec (.upd 0) (poisonedSt sha1)) = some (3, 0, true) ∧ status (exec (.reset 0) (poisonedSt sha1)) = some (0, 0, false) :=
  by decide +kernel

/-- Rule R266's values: the encodings of 0, 136 and 256. -/
theorem test_leftEncode : leftEncode 0 = [1, 0] ∧ leftEncode 136 = [1, 136] ∧ leftEncode 256 = [2, 1, 0] := by decide +kernel

/-- The host's next action is the command: the very next step runs it (log entry 3). -/
theorem test_withFetchWord : (match step (State.reset.withFetchWord 32 0x00000310) with
    | .next t => decide (t.objAt 3 = sha1 ∧ t.reg.cmd = 0x310 ∧ t.reg.err = 0)
    | .fault _ | .refused _ => false) = true := by decide +kernel

/-! ### Witnesses: a state and operands that meet every hypothesis of a statement -/

theorem witness_EncodeOfDecode : decode 0xFF000F20 = some (.updb 15 0xFF) := by decide +kernel

theorem witness_DecodeIsTheOpcodeTable : rowN 0x24 ∈ opcodeRows ∧ (rowN 0x24).spells 0x00000F24 = true := by decide +kernel

/-- A state about to perform one event. -/
def doing (e : Event) (s : State := State.reset) : State := { s with pending := [e] }

theorem witness_StepRunsTheDecodedCommand : (doing (.regWrite 0x00 4 0x00000F24)).pending = .regWrite 0x00 4 0x00000F24 :: [] ∧
    decode 0x00000F24 = some (.fin 15) ∧ ∃ t, step (doing (.regWrite 0x00 4 0x00000F24)) = .next t :=
  ⟨rfl, by decide +kernel, _, rfl⟩

theorem witness_UndecodableWordFails :
    (doing (.regWrite 0x00 4 0x20000000)).pending = .regWrite 0x00 4 0x20000000 :: [] ∧ decode 0x20000000 = none := by
  decide +kernel

theorem witness_ContextIndexOutOfRange : (Instr.newSha1 4).wellFormed State.reset.nctx = false ∧
    (Instr.clone 3 15).wellFormed State.reset.nctx = false := by decide

/-- The first and last `RW` offset, a read-only one, the first reserved offset and the last. -/
theorem witness_HostRegisterAccess :
    (∀ o ∈ [0x14, 0x5C, 0x04, 0x1C, 0x68, 0xFC], o < 256 ∧ o % 4 = 0 ∧ o ≠ 0x00 ∧
      (doing (.regWrite o 4 1)).pending = .regWrite o 4 1 :: [] ∧ (doing (.regRead o 4)).pending = .regRead o 4 :: []) ∧
    (0x14 ∈ rwOffsets ∧ 0x5C ∈ rwOffsets ∧ 0x04 ∉ rwOffsets ∧ 0x1C ∉ rwOffsets ∧ 0x68 ∉ rwOffsets) ∧
    (doing (.regRead 0x00 4)).pending = .regRead 0x00 4 :: [] ∧ 0x68 ≤ 0x68 ∧ 0x68 ≤ 0xFF ∧ 0xFF < 256 := by decide

/-- The last addresses each width reaches, and an address not aligned. -/
theorem witness_HostMemoryAccess :
    ∀ x ∈ [(4095, 1), (4094, 2), (4092, 4), (1, 4)], x.2 ∈ [1, 2, 4] ∧ x.1 + x.2 ≤ State.reset.memBytes ∧
      (doing (.memWrite x.1 x.2 7)).pending = .memWrite x.1 x.2 7 :: [] ∧
      (doing (.memRead x.1 x.2)).pending = .memRead x.1 x.2 :: [] := by decide

theorem witness_UndefinedHostAccessStops :
    (2 ≠ 4 ∨ 0x14 % 4 ≠ 0) ∧ (4 ≠ 4 ∨ 0x15 % 4 ≠ 0) ∧ (doing (.regWrite 0x15 4 1)).pending = .regWrite 0x15 4 1 :: [] ∧
    256 % 4 = 0 ∧ 256 ≤ 256 ∧ (doing (.regRead 256 4)).pending = .regRead 256 4 :: [] ∧
    3 ∉ [1, 2, 4] ∧ (doing (.memWrite 0 3 1)).pending = .memWrite 0 3 1 :: [] ∧
    1 ∈ [1, 2, 4] ∧ State.reset.memBytes < 4096 + 1 ∧ (doing (.memRead 4096 1)).pending = .memRead 4096 1 :: [] := by decide

theorem witness_EveryHostMoveHasASuccessor :
    ∀ e es, (doing (.memWrite 4092 4 7)).pending = e :: es → e.defined (doing (.memWrite 4092 4 7)) = true := by
  intro e es h
  obtain ⟨rfl, -⟩ : .memWrite 4092 4 7 = e ∧ [] = es := by simpa [doing] using h
  decide

theorem witness_HardwareReset : (doing .hardReset (st sha1)).pending = .hardReset :: [] := rfl

/-- A failure of every level of the priority order. -/
theorem witness_FailuresArePrecise :
    errorCode (.fin 1) (st sha1) = 4 ∧ errorCode (.upd 0) (st squeezingShake) = 3 ∧
    errorCode (.newShake 0) (st sha1) = 1 ∧
    errorCode (.finol 0) { st shake with reg := { regs 3 32 16 with dstLen := 97 } } = 2 := by decide +kernel

/-- A command answers a next state: the one hypothesis of ReportingRegisters, RaisableCodes, RegisterFrame, MemoryFrame and
ContextFrame; the last three commands write at an offset, write nothing, and fail. -/
theorem witness_exec_next :
    (∃ t, exec (.fino 0) (st sha1) = .next t) ∧ (∃ t, exec (.updb 0 1) (st sha1) = .next t) ∧
    (∃ t, exec (.fin 1) (st sha1) = .next t) ∧ outputOf (.fino 0) (st sha1) = some (0, 20) ∧
    outputOf (.updb 0 1) (st sha1) = none ∧ errorCode (.fin 1) (st sha1) ≠ 0 :=
  ⟨⟨_, rfl⟩, ⟨_, rfl⟩, ⟨_, rfl⟩, by decide +kernel⟩

/-- A command that fails, a hardware reset, and a write of a register that is neither; the log is clear before each. -/
theorem witness_ErrlogIsSticky :
    (∃ t, step (doing (.regWrite 0x00 4 0) (st sha1)) = .next t ∧ t.reg.err ≠ 0 ∧
      (doing (.regWrite 0x00 4 0) (st sha1)).reg.errlog &&& ~~~0x1E = 0) ∧
    (∃ t, step (doing .hardReset (st sha1)) = .next t ∧ (doing .hardReset (st sha1)).pending = .hardReset :: []) ∧
    ∃ t, step (doing (.regWrite 0x14 4 7) (st sha1)) = .next t ∧
      (∀ w es, (doing (.regWrite 0x14 4 7) (st sha1)).pending ≠ .regWrite 0x00 4 w :: es) ∧
      ∀ es, (doing (.regWrite 0x14 4 7) (st sha1)).pending ≠ .hardReset :: es :=
  ⟨⟨_, rfl, by decide +kernel, by decide +kernel⟩, ⟨_, rfl, rfl⟩, _, rfl, fun w es => by simp [doing], fun es => by simp [doing]⟩

theorem witness_PoisonBit :
    (isSession (.upd 0) = true ∧ errorCode (.upd 0) (st squeezingShake) ∈ [1, 2, 3]) ∧
    (errorCode (.newShake 0) (st sha1) ≠ 0 ∧ isSession (.newShake 0) = false) ∧
    (errorCode (.fin 1) (st sha1) ≠ 0 ∧ errorCode (.fin 1) (st sha1) = 4) ∧
    (illegal (.ch 0) (poisonedSt sha1) = false ∧ isSession (.ch 0) = true ∧ (poisonedSt sha1).poisonAt (Instr.ch 0).target = true) ∧
    (illegal (.wrapHmac 0) (poisonedSt sha1) = false ∧ isWrap (.wrapHmac 0) = true) ∧
    (illegal (.clone 1 0) (poisonedSt sha1) = false ∧ (poisonedSt sha1).poisonAt 0 = true) ∧
    (illegal (.getalg 0) (poisonedSt sha1) = false ∧ illegal (.gethf 0) (poisonedSt (.hmac hmacSha1)) = false) ∧
    (clearsPoison (.newSha1 0) = true ∧ errorCode (.newSha1 0) (poisonedSt sha1) = 0) ∧
    illegal (.reset 0) (poisonedSt sha1) = false := by decide +kernel

/-- `RESET` clears the bit; `UPD` of a squeezing SHAKE sets it. -/
theorem witness_PoisonChangesOnlySo :
    (∃ t, exec (.reset 0) (poisonedSt sha1) = .next t ∧ (poisonedSt sha1).poisonAt 0 = true ∧ t.poisonAt 0 = false) ∧
    ∃ t, exec (.upd 0) (st squeezingShake) = .next t ∧ (st squeezingShake).poisonAt 0 = false ∧ t.poisonAt 0 = true :=
  ⟨⟨_, rfl, by decide +kernel⟩, _, rfl, by decide +kernel⟩

theorem witness_ContextsDoNotInterfere :
    (1 ≠ (Instr.upd 0).target.val ∧ (∀ d src, Instr.upd 0 = .clone d src → 1 ≠ src.val) ∧ ∃ t, exec (.upd 0) (st sha1) = .next t) ∧
    (2 ≠ (Instr.clone 1 0).target.val ∧ (∀ d src, Instr.clone 1 0 = .clone d src → 2 ≠ src.val) ∧
      ∃ t, exec (.clone 1 0) (st sha1) = .next t) := by
  refine ⟨⟨by decide, fun d src h => by simp at h, _, rfl⟩, by decide, fun d src h => ?_, _, rfl⟩
  cases h
  decide

theorem witness_ConfigurationIsFixed :
    isNew (.fin 0) = false ∧ isWrap (.fin 0) = false ∧ (∀ d src, Instr.fin 0 ≠ .clone d src) ∧
    (∀ c, Instr.fin 0 ≠ .dispose c) ∧ ∃ t, exec (.fin 0) (st sha1) = .next t :=
  ⟨rfl, rfl, by simp, by simp, _, rfl⟩

theorem witness_ResetIsInsideTheInvariant : 1 ≤ 1 ∧ 16 ≤ 16 ∧ (1 : Word) ≠ 0 := by decide

/-- A state with an object, inside the invariant, with a step to make. -/
theorem witness_StepKeepsTheInvariant :
    ((State.resetWith 1 1 0 [.regWrite 0x00 4 0x00000024]).holding 0 sha1).Inv ∧
    ∃ t, step ((State.resetWith 1 1 0 [.regWrite 0x00 4 0x00000024]).holding 0 sha1) = .next t := by
  refine ⟨⟨⟨by decide, by decide, by decide, by decide, by decide⟩, by decide, by decide, List.Pairwise.nil, ?_, ?_⟩, _, rfl⟩
  · intro x hx
    cases hx
  · intro x hx
    obtain rfl : x = { obj := sha1, poison := false } := List.mem_singleton.1 hx
    exact ⟨⟨by decide +kernel, by decide +kernel, by decide +kernel, by decide +kernel⟩, fun h => by cases h⟩

theorem witness_FinishGivesFresh : (Engine.md (Md.fresh .sha512)).Inv :=
  ⟨by decide +kernel, by decide +kernel, by decide +kernel, by decide +kernel⟩

/-- SHA-1's recurrences have a solution from every chaining value and block. -/
theorem witness_Sha1Compression (H : Words5 32) (block : Bytes) : ∃ (W : Nat → BitVec 32) (v : Nat → Words5 32),
    (∀ t, t < 16 → W t = BitVec.ofNat 32 (beNat (slice block (4 * t) 4))) ∧
    (∀ t, 16 ≤ t → t < 80 → W t = (W (t - 3) ^^^ W (t - 8) ^^^ W (t - 14) ^^^ W (t - 16)).rotateLeft 1) ∧
    v 0 = H ∧
    (∀ t, t < 80 →
      let x := (v t).h1
      let y := (v t).h2
      let z := (v t).h3
      let f := if t < 20 then (x &&& y) ||| (~~~x &&& z) else if t < 40 then x ^^^ y ^^^ z
        else if t < 60 then (x &&& y) ||| (x &&& z) ||| (y &&& z) else x ^^^ y ^^^ z
      let k : BitVec 32 := if t < 20 then 0x5A827999 else if t < 40 then 0x6ED9EBA1 else if t < 60 then 0x8F1BBCDC
        else 0xCA62C1D6
      v (t + 1) = ⟨(v t).h0.rotateLeft 5 + f + (v t).h4 + k + W t, (v t).h0, (v t).h1.rotateLeft 30, (v t).h2, (v t).h3⟩) := by
  obtain ⟨-, g1, g2⟩ := sha1Schedule_spec block
  refine ⟨fun t => (sha1Schedule block).getD t 0, fun t => (List.range t).foldl (sha1Step (sha1Schedule block)) H, g1, g2, rfl,
    fun t _ => ?_⟩
  beta_reduce
  rw [List.range_succ, List.foldl_append]
  simp only [List.foldl_cons, List.foldl_nil, sha1Step, sha1Round]
  split_ifs <;> rfl

/-- SHA-256's recurrences have a solution from every chaining value and block. -/
theorem witness_Sha2Compression_256 (H : Words8 32) (block : Bytes) : ∃ (W : Nat → BitVec 32) (v : Nat → Words8 32),
    (∀ t, t < 16 → W t = BitVec.ofNat 32 (beNat (slice block (4 * t) 4))) ∧
    (∀ t, 16 ≤ t → t < 64 →
      let x := W (t - 2)
      let y := W (t - 15)
      W t = (x.rotateRight 17 ^^^ x.rotateRight 19 ^^^ x >>> 10) + W (t - 7) +
        (y.rotateRight 7 ^^^ y.rotateRight 18 ^^^ y >>> 3) + W (t - 16)) ∧
    v 0 = H ∧
    (∀ t, t < 64 →
      let a := (v t).h0
      let b := (v t).h1
      let c := (v t).h2
      let e := (v t).h4
      let f := (v t).h5
      let g := (v t).h6
      let T1 := (v t).h7 + (e.rotateRight 6 ^^^ e.rotateRight 11 ^^^ e.rotateRight 25) + ((e &&& f) ^^^ (~~~e &&& g)) +
        k256.getD t 0 + W t
      let T2 := (a.rotateRight 2 ^^^ a.rotateRight 13 ^^^ a.rotateRight 22) + ((a &&& b) ^^^ (a &&& c) ^^^ (b &&& c))
      v (t + 1) = ⟨T1 + T2, a, b, c, (v t).h3 + T1, e, f, g⟩) := by
  obtain ⟨-, g1, g2⟩ := sha256Fns.schedule_spec (by decide) block
  refine ⟨fun t => (sha256Fns.schedule block).getD t 0,
    fun t => (List.range t).foldl (sha256Fns.step (sha256Fns.schedule block)) H, g1, g2, rfl, fun t _ => ?_⟩
  beta_reduce
  rw [List.range_succ, List.foldl_append]
  rfl

/-- SHA-512's recurrences have a solution from every chaining value and block. -/
theorem witness_Sha2Compression_512 (H : Words8 64) (block : Bytes) : ∃ (W : Nat → BitVec 64) (v : Nat → Words8 64),
    (∀ t, t < 16 → W t = BitVec.ofNat 64 (beNat (slice block (8 * t) 8))) ∧
    (∀ t, 16 ≤ t → t < 80 →
      let x := W (t - 2)
      let y := W (t - 15)
      W t = (x.rotateRight 19 ^^^ x.rotateRight 61 ^^^ x >>> 6) + W (t - 7) +
        (y.rotateRight 1 ^^^ y.rotateRight 8 ^^^ y >>> 7) + W (t - 16)) ∧
    v 0 = H ∧
    (∀ t, t < 80 →
      let a := (v t).h0
      let b := (v t).h1
      let c := (v t).h2
      let e := (v t).h4
      let f := (v t).h5
      let g := (v t).h6
      let T1 := (v t).h7 + (e.rotateRight 14 ^^^ e.rotateRight 18 ^^^ e.rotateRight 41) + ((e &&& f) ^^^ (~~~e &&& g)) +
        k512.getD t 0 + W t
      let T2 := (a.rotateRight 28 ^^^ a.rotateRight 34 ^^^ a.rotateRight 39) + ((a &&& b) ^^^ (a &&& c) ^^^ (b &&& c))
      v (t + 1) = ⟨T1 + T2, a, b, c, (v t).h3 + T1, e, f, g⟩) := by
  obtain ⟨-, g1, g2⟩ := sha512Fns.schedule_spec (by decide) block
  refine ⟨fun t => (sha512Fns.schedule block).getD t 0,
    fun t => (List.range t).foldl (sha512Fns.step (sha512Fns.schedule block)) H, g1, g2, rfl, fun t _ => ?_⟩
  beta_reduce
  rw [List.range_succ, List.foldl_append]
  rfl

/-- The least and a longer padding of one SHA-256 message length (the clause about the least number of zeros). -/
theorem witness_MdPadding : (55 + 1 + 0) % MdAlg.sha256.blockLen = MdAlg.sha256.blockLen - MdAlg.sha256.lenBytes ∧
    (55 + 1 + 64) % MdAlg.sha256.blockLen = MdAlg.sha256.blockLen - MdAlg.sha256.lenBytes := by decide

theorem witness_FreshSponge :
    (SpongeCfg.sha3 .b512).customised = false ∧ (SpongeCfg.cshake .b128 [] []).customised = false ∧
    (([] : Bytes) ≠ [] ∨ ([1] : Bytes) ≠ []) := by decide

/-- The values where the number of length bytes changes, and the least word of `bytepad`. -/
theorem witness_StringEncodings :
    (1 ≤ 1 ∧ 0 < 2 ^ (8 * 1) ∧ 255 < 2 ^ (8 * 1)) ∧
    (1 ≤ 2 ∧ 256 < 2 ^ (8 * 2) ∧ ∀ n', 1 ≤ n' → 256 < 2 ^ (8 * n') → 2 ≤ n') ∧ 0 < 1 := by
  refine ⟨by decide, ⟨by decide, by decide, fun n' h1 h2 => ?_⟩, by decide⟩
  by_contra h
  obtain rfl : n' = 1 := by omega
  exact absurd h2 (by decide)

/-- The longest key with salt and personalization, and no key with neither. -/
theorem witness_FreshBlake :
    BlakeCfg.Inv { dlen := 64, key := zeros 64, salt := some (zeros 16), pers := some (zeros 16) } ∧ zeros 64 ≠ [] ∧
    BlakeCfg.Inv { dlen := 1, key := [], salt := none, pers := none } :=
  ⟨⟨by decide, by decide, by rintro x ⟨⟩; decide, by rintro x ⟨⟩; decide⟩, by decide,
    ⟨by decide, by decide, by rintro x ⟨⟩, by rintro x ⟨⟩⟩⟩

theorem witness_BlakeMixing : (zeros 16).length = 16 ∧ [(3 : Fin 16), 4, 9, 14].Nodup ∧ (15 : Fin 16) ∉ [(3 : Fin 16), 4, 9, 14] := by
  decide

theorem witness_BlakeEngineComputesBlake2b : (zeros 64).length ≤ 64 := by decide

/-- A key one byte too long, and one that its zeros make exactly a block. -/
theorem witness_HmacKeyLaws : (EngineCfg.md .sha1).Inv ∧ (zeros 65).length > (EngineCfg.md .sha1).blockLen ∧
    (zeros 63).length + 1 ≤ (EngineCfg.md .sha1).blockLen := ⟨trivial, by decide, by decide⟩

/-- The hypothesis of HkdfControllerComputesHkdf. -/
theorem witness_HkdfControllerComputesHkdf : hmacSha1.cfg.Inv := trivial

theorem witness_Pbkdf2ControllerComputesPbkdf2 : 1 ≤ 1 ∧ hmacSha1.cfg.Inv := ⟨by decide, trivial⟩

theorem witness_ResetDisposeClone :
    errorCode (.reset 0) (st sha1) = 0 ∧ errorCode (.dispose 0) (st sha1) = 0 ∧ errorCode (.clone 3 0) (st sha1) = 0 ∧
    keyedHmac.init = true ∧ hmacSha1.init = false ∧ (Obj.hmac hmacSha1).refresh = .hmac hmacSha1 := by decide +kernel

theorem witness_MetadataCommands :
    errorCode (.getalg 0) (poisonedSt sha3) = 0 ∧ errorCode (.gethlen 0) (st sha3) = 0 ∧ errorCode (.getblen 0) (st sha3) = 0 ∧
    (st (.hmac hmacSha1)).objAt 0 = .hmac hmacSha1 ∧ errorCode (.gethf 0) (st (.hmac hmacSha1)) = 0 := by decide +kernel

theorem witness_NewMd : (3 : CtxId).val < State.reset.nctx := by decide

theorem witness_NewSponge :
    errorCode (.newSha3 3) { st sha1 with reg := { regs 0 0 0 with param0 := 512 } } = 0 ∧
    errorCode (.newShake 0) { st sha1 with reg := { regs 0 0 0 with param0 := 256 } } = 0 ∧
    errorCode (.newCshake 0 true true) { st sha1 with reg := { regs 0 0 0 with param0 := 128 } } = 0 := by decide +kernel

/-- The shortest and the longest digest, the second with the longest key. -/
theorem witness_NewBlake2b :
    errorCode (.newBlake2b 0 false false false) { st sha1 with reg := { regs 0 0 0 with param0 := 1 } } = 0 ∧
    errorCode (.newBlake2b 0 true true true) { st sha1 with reg := { regs 0 64 16 with param0 := 64 } } = 0 := by decide +kernel

theorem witness_WrapAndNewPbkdf2 :
    ((st sha1).objAt 0 = sha1 ∧ errorCode (.wrapHmac 0) (st sha1) = 0) ∧
    ((st (.hmac hmacSha1)).objAt 0 = .hmac hmacSha1 ∧ (Obj.hmac hmacSha1).refresh = .hmac hmacSha1 ∧
      errorCode (.wrapHkdf 0) (st (.hmac hmacSha1)) = 0 ∧ errorCode (.wrapPbkdf2 0 true) (st (.hmac hmacSha1)) = 0) ∧
    (3 : CtxId).val < (st sha1).nctx := by decide +kernel

/-- A hash engine and an initialised HMAC; a range that ends at the end of the buffer. -/
theorem witness_UpdateCommands :
    errorCode (.updb 0 0) (st (.hmac keyedHmac)) = 0 ∧ errorCode (.upd 0) (st sha1 [1, 2, 3]) = 0 ∧
    errorCode (.updr 0) { st sha1 with reg := { regs 3 0 0 with srcStart := 1, srcLen := 2 } } = 0 := by decide +kernel

/-- A destination of exactly the digest's length, at an offset that ends at the end of the buffer. -/
theorem witness_FinalCommands :
    errorCode (.fin 0) { st sha1 with reg := { regs 0 0 0 with dstSize := 20 } } = 0 ∧
    errorCode (.fino 0) { st (.hmac keyedHmac) with reg := { regs 0 0 0 with dstStart := 76 } } = 0 := by decide +kernel

theorem witness_XofOutputCommands :
    (st shake).objAt 0 = shake ∧ errorCode (.out 0) (st shake) = 0 ∧
    errorCode (.outl 0) { st squeezingShake with reg := { regs 0 0 0 with dstStart := 95, dstLen := 1 } } = 0 ∧
    errorCode (.finol 0) { st shake with reg := { regs 0 0 0 with dstLen := 96 } } = 0 := by decide +kernel

theorem witness_ComputeHashCommands :
    (st sha3).objAt 0 = sha3 ∧ errorCode (.ch 0) (st sha3) = 0 ∧ errorCode (.chr 0) (st sha3) = 0 := by decide +kernel

theorem witness_ComputeXofCommands :
    (st shake).objAt 0 = shake ∧ errorCode (.chl 0) { st shake with reg := { regs 0 0 0 with dstLen := 96 } } = 0 ∧
    errorCode (.chrl 0) (st shake) = 0 := by decide +kernel

theorem witness_MacCommands :
    (st (.hmac hmacSha1)).objAt 0 = .hmac hmacSha1 ∧ errorCode (.minit 0) (st (.hmac hmacSha1)) = 0 ∧
    errorCode (.mch 0) (st (.hmac hmacSha1)) = 0 := by decide +kernel

/-- A pseudorandom key of exactly the digest's length for `HKDF.EXPAND`. -/
theorem witness_HkdfCommands :
    (st (.hkdf hmacSha1)).objAt 0 = .hkdf hmacSha1 ∧ errorCode (.hkdfExtract 0 true) (st (.hkdf hmacSha1)) = 0 ∧
    errorCode (.hkdfExpand 0 true) (st (.hkdf hmacSha1) [] (zeros 20)) = 0 ∧
    errorCode (.hkdfDerive 0 true true) (st (.hkdf hmacSha1)) = 0 := by decide +kernel

/-- A requested length of exactly the destination's size. -/
theorem witness_Pbkdf2DeriveCommand :
    (st (.pbkdf2 hmacSha1 7)).objAt 0 = .pbkdf2 hmacSha1 7 ∧
    errorCode (.pbkdf2Derive 0 false) { st (.pbkdf2 hmacSha1 7) with reg := { regs 0 0 16 with param0 := 96 } } = 0 := by
  decide +kernel

end Sys2Proof.Tests
end

section
/-! SUPPORT. Every engine operation keeps the engine's invariant (10_state.md rules R32, R34, R35), and an engine's
digest is never longer than `hashLen` (40_engine_contract.md rule R131). -/

namespace Sys2Proof.Machine

/-! ### Buffers with a zero tail -/

@[simp] theorem drop_zeros (k n : Nat) : (zeros n).drop k = zeros (n - k) := by simp [zeros]

/-- Storing a byte at the first position of a zero tail leaves the rest of the tail zero. -/
theorem drop_succ_set_of_zeroTail {s : Bytes} {i n : Nat} (h : s.drop i = zeros (n - i)) (b : Byte) :
    (s.set i b).drop (i + 1) = zeros (n - (i + 1)) := by
  rw [List.drop_set_of_lt (by omega), ← List.drop_drop, h, drop_zeros, Nat.sub_sub]

/-! ### Merkle–Damgård (rule R32) -/

theorem MdAlg.blockLen_pos (alg : MdAlg) : 0 < alg.blockLen := by cases alg <;> decide

@[simp] theorem MdRegs.compress_byteCount (r : MdRegs) (block : Bytes) : (r.compress block).byteCount = r.byteCount := by
  cases r <;> simp [compress, byteCount]

/-- The two-word counter of SHA-512 modulo its block is its low word's. -/
theorem toNat_append_mod_128 (hi lo : BitVec 64) : (hi ++ lo).toNat % 128 = lo.toNat % 128 := by
  rw [BitVec.toNat_append, ← Nat.shiftLeft_add_eq_or_of_lt lo.isLt, Nat.shiftLeft_eq]
  omega

/-- Counting a byte advances the counter by one modulo the block length, wrap included (rule R204). -/
theorem MdRegs.count_byteCount_mod (r : MdRegs) :
    r.count.byteCount % r.alg.blockLen = (r.byteCount + 1) % r.alg.blockLen := by
  cases r with
  | sha1 H n | sha256 H n =>
    simp only [count, byteCount, alg, MdAlg.blockLen]
    bv_omega
  | sha512 H hi lo =>
    have hlo : (lo + 1).toNat % 128 = (lo.toNat + 1) % 128 := by
      bv_omega
    simp only [count, byteCount, alg, MdAlg.blockLen, toNat_append_mod_128, hlo]
    rw [← Nat.mod_add_mod, ← toNat_append_mod_128 hi lo, Nat.mod_add_mod]

theorem Md.fresh_inv (alg : MdAlg) : (Md.fresh alg).Inv where
  bufLength := by rw [fresh_alg]; exact zeros_length _
  offset := by rw [fresh_alg]; exact alg.blockLen_pos
  count := by cases alg <;> simp [fresh, MdRegs.initial, MdRegs.byteCount]
  zeroTail := by rw [fresh_alg]; rfl

theorem Md.absorbByte_inv {e : Md} (h : e.Inv) (b : Byte) : (e.absorbByte b).Inv := by
  obtain ⟨hbuf, hoff, hcount, htail⟩ := h
  by_cases hfull : e.bufOff + 1 = e.alg.blockLen
  · -- the block is complete: it is compressed and the buffer starts afresh
    have heq : e.absorbByte b =
        ⟨(e.regs.compress (e.buf.set e.bufOff b)).count, zeros e.alg.blockLen, 0⟩ := by
      simp [absorbByte, push, hfull]
    rw [heq]
    refine ⟨by simp [alg], by simpa [alg] using e.alg.blockLen_pos, ?_, by simp [alg]⟩
    have hmod := MdRegs.count_byteCount_mod (e.regs.compress (e.buf.set e.bufOff b))
    simp only [MdRegs.compress_alg, MdRegs.compress_byteCount] at hmod
    simp only [alg, MdRegs.count_alg, MdRegs.compress_alg] at *
    rw [hmod, ← Nat.mod_add_mod, hcount, hfull, Nat.mod_self]
  · have heq : e.absorbByte b = ⟨e.regs.count, e.buf.set e.bufOff b, e.bufOff + 1⟩ := by
      simp [absorbByte, push, hfull]
    rw [heq]
    have hmod := MdRegs.count_byteCount_mod e.regs
    have hlt : e.bufOff + 1 < e.alg.blockLen := by omega
    refine ⟨by simpa [alg] using hbuf, by simpa [alg] using hlt, ?_, ?_⟩
    case refine_2 => simpa [alg] using drop_succ_set_of_zeroTail htail b
    simp only [alg, MdRegs.count_alg] at *
    rw [hmod, ← Nat.mod_add_mod, hcount, Nat.mod_eq_of_lt hlt]

theorem Md.absorb_inv {e : Md} (h : e.Inv) (s : Bytes) : (e.absorb s).Inv := by
  induction s generalizing e with
  | nil => exact h
  | cons b s ih => exact ih (absorbByte_inv h b)

/-! ### Sponge (rules R34, R253) -/

/-- A rate is a positive number of whole lanes. -/
theorem SpongeCfg.rate_lanes (cfg : SpongeCfg) : cfg.rate % 64 = 0 ∧ 0 < cfg.rate := by
  rcases cfg with b | b | ⟨b, N, S⟩ <;> cases b <;>
    simp [rate, rateOf, bits, Sha3Bits.val, XofBits.val]

theorem Sponge.absorbByte_inv {e : Sponge} (h : e.Inv) (hs : e.squeezing = false) (b : Byte) : (e.absorbByte b).Inv := by
  obtain ⟨hcfg, hqueue, hbytes, habs, -⟩ := h
  obtain ⟨hroom, htail⟩ := habs hs
  obtain ⟨hlanes, hpos⟩ := e.cfg.rate_lanes
  have hrate : e.cfg.rateBytes = e.cfg.rate / 8 := rfl
  by_cases hfull : e.bitsInQueue + 8 = e.cfg.rate
  · -- the queue is full: it is permuted in and starts afresh
    have heq : e.absorbByte b = { e with
        A := keccakF (xorBlock e.A (e.queue.set (e.bitsInQueue / 8) b) (e.cfg.rate / 64))
        queue := zeros e.cfg.rateBytes, bitsInQueue := 0 } := by
      simp [absorbByte, hfull, xorQueueAndPermute]
    rw [heq]
    exact
      { cfg := hcfg
        queueLength := by simp
        wholeBytes := rfl
        absorbing := fun _ => ⟨by simp only; omega, by simp⟩
        squeezed := fun h => by simp [hs] at h }
  · have heq : e.absorbByte b = { e with
        queue := e.queue.set (e.bitsInQueue / 8) b, bitsInQueue := e.bitsInQueue + 8 } := by
      simp [absorbByte, hfull]
    have hnext : (e.bitsInQueue + 8) / 8 = e.bitsInQueue / 8 + 1 := by omega
    rw [heq]
    exact
      { cfg := hcfg
        queueLength := by simpa using hqueue
        wholeBytes := by simp only; omega
        absorbing := fun _ => ⟨by simp only; omega, by simpa only [hnext] using drop_succ_set_of_zeroTail htail b⟩
        squeezed := fun h => by simp [hs] at h }

theorem Sponge.absorb_inv {e : Sponge} (h : e.Inv) (hs : e.squeezing = false) (s : Bytes) : (e.absorb s).Inv := by
  induction s generalizing e with
  | nil => exact h
  | cons b s ih => exact ih (absorbByte_inv h hs b) (by simpa using hs)

theorem Sponge.fresh_inv {cfg : SpongeCfg} (h : cfg.Inv) : (Sponge.fresh cfg).Inv := by
  obtain ⟨hlanes, hpos⟩ := cfg.rate_lanes
  exact absorb_inv ⟨h, by simp, rfl, fun _ => ⟨by simp only; omega, by simp⟩, fun h => by simp at h⟩ rfl _

@[simp] theorem stateBytes_length (A : Lanes) (lanes : Nat) : (stateBytes A lanes).length = 8 * lanes := by
  simp [stateBytes, List.length_flatMap, Nat.mul_comm]

/-- A squeezing XOF whose queue has just been filled with output is inside the invariant (rule R262). -/
theorem Sponge.extract_inv {e : Sponge} (hcfg : e.cfg.Inv) (hx : e.cfg.isXof = true) (hs : e.squeezing = true) :
    e.extract.Inv := by
  obtain ⟨hlanes, hpos⟩ := e.cfg.rate_lanes
  have hlength : 8 * (e.cfg.rate / 64) = e.cfg.rate / 8 := by omega
  exact
    { cfg := hcfg
      queueLength := by simpa [extract, SpongeCfg.rateBytes] using hlength
      wholeBytes := by simp only [extract]; omega
      absorbing := fun h => by simp [extract, hs] at h
      squeezed := fun _ => ⟨Nat.le_refl _, hx⟩ }

/-- The switch to the squeezing phase ends with the first block of output (rule R262). -/
theorem Sponge.padAndSwitch_inv {e : Sponge} (h : e.Inv) (hx : e.cfg.isXof = true) : e.padAndSwitch.Inv := by
  unfold padAndSwitch
  exact extract_inv (by exact h.cfg) (by exact hx) rfl

/-- After a refill there is a byte to deliver (rule R264). -/
theorem Sponge.refill_inv {e : Sponge} (h : e.Inv) (hs : e.squeezing = true) :
    e.refill.Inv ∧ 0 < e.refill.bitsInQueue := by
  unfold refill
  split
  · exact ⟨extract_inv h.cfg (h.squeezed hs).2 hs, e.cfg.rate_lanes.2⟩
  · exact ⟨h, by omega⟩

theorem Sponge.squeezeLoop_inv {e : Sponge} (h : e.Inv) (hs : e.squeezing = true) (n : Nat) :
    (Sponge.squeezeLoop n e).2.Inv := by
  induction n generalizing e with
  | zero => exact h
  | succ n ih =>
    obtain ⟨⟨hcfg, hqueue, hbytes, -, hsq⟩, hpos⟩ := refill_inv h hs
    have hs' : e.refill.squeezing = true := by simpa using hs
    obtain ⟨hle, hx⟩ := hsq hs'
    exact ih (e := { e.refill with bitsInQueue := e.refill.bitsInQueue - 8 })
      { cfg := hcfg
        queueLength := hqueue
        wholeBytes := by simp only; omega
        absorbing := fun h => absurd (hs'.symm.trans h) (by decide)
        squeezed := fun _ => ⟨by simp only; omega, hx⟩ } hs'

/-- A squeeze from an XOF in either phase keeps the invariant (rules R34, R264). -/
theorem Sponge.squeeze_inv {e : Sponge} (h : e.Inv) (hx : e.cfg.isXof = true) (n : Nat) : (e.squeeze n).2.Inv := by
  unfold squeeze
  split
  next hs => exact squeezeLoop_inv h hs n
  next => exact squeezeLoop_inv (padAndSwitch_inv h hx) e.padAndSwitch_squeezing n

/-! ### BLAKE2b (rule R35) -/

theorem Blake.fresh_inv {cfg : BlakeCfg} (h : cfg.Inv) : (Blake.fresh cfg).Inv := by
  have hkey := h.key
  refine ⟨h, ?_, ?_, ?_⟩
  · simp only [fresh, blakeBlockLen, List.length_append, zeros_length]
    omega
  · simp only [fresh, blakeBlockLen]
    split <;> omega
  · by_cases hk : cfg.key.length > 0
    · simp only [fresh, blakeBlockLen, hk, if_true]
      rw [List.drop_eq_nil_of_le (by simp only [List.length_append, zeros_length]; omega)]
      rfl
    · have hnil : cfg.key = [] := List.eq_nil_of_length_eq_zero (by omega)
      simp [fresh, blakeBlockLen, hnil]

/-- After a flush there is room for a byte (rule R303). -/
theorem Blake.flush_inv {e : Blake} (h : e.Inv) : e.flush.Inv ∧ e.flush.pos < 128 := by
  unfold flush
  split
  · exact ⟨⟨h.cfg, by simp [blakeBlockLen], by simp, by simp [blakeBlockLen]⟩, by simp⟩
  next hne => exact ⟨h, Nat.lt_of_le_of_ne h.position hne⟩

theorem Blake.absorbByte_inv {e : Blake} (h : e.Inv) (b : Byte) : (e.absorbByte b).Inv := by
  obtain ⟨⟨hcfg, hbuf, -, htail⟩, hroom⟩ := flush_inv h
  exact ⟨hcfg, by simpa [absorbByte] using hbuf, hroom, drop_succ_set_of_zeroTail htail b⟩

theorem Blake.absorb_inv {e : Blake} (h : e.Inv) (s : Bytes) : (e.absorb s).Inv := by
  induction s generalizing e with
  | nil => exact h
  | cons b s ih => exact ih (absorbByte_inv h b)

/-! ### The contract (rules R130 to R133) -/

theorem Engine.Inv.cfg {e : Engine} (h : e.Inv) : e.cfg.Inv := by
  cases e with
  | md e => trivial
  | sponge e => exact Sponge.Inv.cfg h
  | blake e => exact Blake.Inv.cfg h

theorem Engine.fresh_inv {cfg : EngineCfg} (h : cfg.Inv) : (Engine.fresh cfg).Inv := by
  cases cfg with
  | md alg => exact Md.fresh_inv alg
  | sponge cfg => exact Sponge.fresh_inv h
  | blake cfg => exact Blake.fresh_inv h

@[simp] theorem Engine.fresh_squeezing (cfg : EngineCfg) : (Engine.fresh cfg).squeezing = false := by
  cases cfg <;> simp [Engine.fresh, Engine.squeezing]

/-- Absorption keeps the invariant of an engine that is not squeezing (rule R132). -/
theorem Engine.absorb_inv {e : Engine} (h : e.Inv) (hs : e.squeezing = false) (s : Bytes) : (e.absorb s).Inv := by
  cases e with
  | md e => exact Md.absorb_inv h s
  | sponge e => exact Sponge.absorb_inv h hs s
  | blake e => exact Blake.absorb_inv h s

/-- Every session of a legal configuration is inside the invariant, whatever it has absorbed. -/
theorem Engine.fresh_absorb_inv {cfg : EngineCfg} (h : cfg.Inv) (s : Bytes) : ((Engine.fresh cfg).absorb s).Inv :=
  Engine.absorb_inv (Engine.fresh_inv h) (Engine.fresh_squeezing cfg) s

/-- `Finish` leaves the fresh object of the same configuration (rule R133). -/
@[simp] theorem Engine.finish_snd (e : Engine) : e.finish.2 = Engine.fresh e.cfg := by
  cases e <;> rfl

theorem MdRegs.digest_length (r : MdRegs) : r.digest.length = r.alg.hashLen := by
  cases r <;> simp [digest, alg, MdAlg.hashLen, Words5.toList, Words8.toList]

@[simp] theorem Md.foldl_push_alg (e : Md) (s : Bytes) : (s.foldl Md.push e).alg = e.alg := by
  induction s generalizing e with
  | nil => rfl
  | cons b s ih => simp [ih]

/-- No digest is longer than `hashLen`; a BLAKE2b object outside the invariant could ask for more bytes than there are. -/
theorem Engine.finish_length_le (e : Engine) : e.finish.1.length ≤ e.hashLen := by
  cases e with
  | md e =>
    have halg : (((mdPad e.alg e.regs.byteCount).foldl Md.push e).regs).alg = e.alg := Md.foldl_push_alg e _
    simp [Engine.finish, Md.finish, MdRegs.digest_length, halg, Engine.hashLen, Engine.cfg, EngineCfg.hashLen]
  | sponge e => simp [Engine.finish, Sponge.finish, Engine.hashLen, Engine.cfg, EngineCfg.hashLen]
  | blake e => simp [Engine.finish, Blake.finish, Engine.hashLen, Engine.cfg, EngineCfg.hashLen]

theorem hashOf_length_le (cfg : EngineCfg) (m : Bytes) : (hashOf cfg m).length ≤ cfg.hashLen := by
  simpa [hashOf, Engine.hashLen] using ((Engine.fresh cfg).absorb m).finish_length_le

/-- No legal configuration has a digest of more than 64 bytes (rule R131). -/
theorem EngineCfg.Inv.hashLen_le {cfg : EngineCfg} (h : cfg.Inv) : cfg.hashLen ≤ 64 := by
  cases cfg with
  | md alg => cases alg <;> decide
  | sponge cfg =>
    rcases cfg with b | b | ⟨b, N, S⟩ <;> cases b <;>
      simp [hashLen, SpongeCfg.hashLen, SpongeCfg.isXof, SpongeCfg.bits, Sha3Bits.val, XofBits.val]
  | blake cfg => exact (BlakeCfg.Inv.dlen h).2

end Sys2Proof.Machine
end

section
/-! SUPPORT. The HMAC, HKDF and PBKDF2 controllers keep the HMAC invariant (10_state.md rule R36; 44_hmac.md rule R331;
45_kdf.md rule R358), and no output is longer than the command announces. -/

namespace Sys2Proof.Machine

/-! ### HMAC (rules R332 to R338) -/

theorem Hmac.Inv.cfg {M : Hmac} (h : M.Inv) : M.cfg.Inv := Engine.Inv.cfg h.engine

/-- An HMAC with the pads of its key, whose engine has absorbed the inner pad and more, is inside the invariant: the
engine's own invariant follows. -/
theorem Hmac.Inv.of_keyed {M : Hmac} (hcfg : M.cfg.Inv) (hkey : M.key.length < 2 ^ 32) (hinit : M.init = true)
    (hipad : M.ipad = hmacIpad M.cfg M.key) (hopad : M.opad = hmacOpad M.cfg M.key) (m : Bytes)
    (hE : M.E = (Engine.fresh M.cfg).absorb (M.ipad ++ m)) : M.Inv where
  engine := hE ▸ Engine.fresh_absorb_inv hcfg _
  keyLength := hkey
  initialised _ := ⟨hipad, hopad, m, hE⟩
  uninitialised h := absurd (hinit.symm.trans h) (by decide)

theorem Hmac.wrap_inv {cfg : EngineCfg} (h : cfg.Inv) : (Hmac.wrap cfg).Inv where
  engine := Engine.fresh_inv h
  keyLength := by simp [wrap]
  initialised h := by simp [wrap] at h
  uninitialised _ := by simp [wrap, Hmac.cfg, blockLen, Engine.blockLen]

theorem Hmac.initialize_inv {M : Hmac} (h : M.Inv) {K : Bytes} (hK : K.length < 2 ^ 32) : (M.initialize K).Inv :=
  .of_keyed (by simpa using h.cfg) hK rfl (by rw [initialize_cfg]; rfl) (by rw [initialize_cfg]; rfl) []
    (by rw [initialize_cfg, List.append_nil]; rfl)

theorem Hmac.absorb_inv {M : Hmac} (h : M.Inv) (hinit : M.init = true) (s : Bytes) : (M.absorb s).Inv := by
  obtain ⟨hipad, hopad, m, hE⟩ := h.initialised hinit
  refine .of_keyed (by simpa using h.cfg) h.keyLength hinit (by rw [absorb_cfg]; exact hipad)
    (by rw [absorb_cfg]; exact hopad) (m ++ s) ?_
  calc M.E.absorb s = ((Engine.fresh M.cfg).absorb (M.ipad ++ m)).absorb s := by rw [← hE]
    _ = (Engine.fresh (M.absorb s).cfg).absorb (M.ipad ++ (m ++ s)) := by
      rw [← Engine.absorb_append, List.append_assoc, absorb_cfg]

/-- `Finish` leaves the HMAC primed again with its inner pad (rule R335). -/
theorem Hmac.finish_snd (M : Hmac) : M.finish.2 = { M with E := (Engine.fresh M.cfg).absorb M.ipad } := by
  simp [finish, Hmac.cfg]

@[simp] theorem Hmac.finish_cfg (M : Hmac) : M.finish.2.cfg = M.cfg := by simp [finish_snd, Hmac.cfg]

@[simp] theorem Hmac.finish_init (M : Hmac) : M.finish.2.init = M.init := rfl

@[simp] theorem Hmac.absorb_init (M : Hmac) (s : Bytes) : (M.absorb s).init = M.init := rfl

/-- An initialised HMAC whose engine is primed with the inner pad again stays inside the invariant. -/
theorem Hmac.primed_inv {M : Hmac} (h : M.Inv) (hinit : M.init = true) :
    Hmac.Inv { M with E := (Engine.fresh M.cfg).absorb M.ipad } := by
  obtain ⟨hipad, hopad, -⟩ := h.initialised hinit
  exact .of_keyed (by simpa [Hmac.cfg] using h.cfg) h.keyLength hinit (by simpa [Hmac.cfg] using hipad)
    (by simpa [Hmac.cfg] using hopad) [] (by simp [Hmac.cfg])

theorem Hmac.finish_inv {M : Hmac} (h : M.Inv) (hinit : M.init = true) : M.finish.2.Inv := by
  rw [finish_snd]
  exact primed_inv h hinit

theorem Hmac.refresh_inv {M : Hmac} (h : M.Inv) : M.refresh.Inv := by
  cases hinit : M.init with
  | true => simpa [refresh, hinit] using primed_inv h hinit
  | false =>
    have hE := (h.uninitialised hinit).1
    have heq : M.refresh = M := by rw [refresh, if_neg (by simp [hinit]), ← hE]
    rwa [heq]

theorem Hmac.compute_inv {M : Hmac} (h : M.Inv) {K : Bytes} (hK : K.length < 2 ^ 32) (m : Bytes) :
    (M.compute K m).2.Inv :=
  finish_inv (absorb_inv (initialize_inv h hK) rfl m) rfl

@[simp] theorem Hmac.compute_cfg (M : Hmac) (K m : Bytes) : (M.compute K m).2.cfg = M.cfg := by simp [compute]

theorem Hmac.hashLen_eq (M : Hmac) : M.hashLen = M.cfg.hashLen := rfl

theorem Hmac.finish_length_le (M : Hmac) : M.finish.1.length ≤ M.hashLen := by
  have h := (M.E.finish.2.absorb (M.opad ++ M.E.finish.1)).finish_length_le
  simpa [finish, hashLen, Engine.hashLen] using h

theorem Hmac.compute_length_le (M : Hmac) (K m : Bytes) : (M.compute K m).1.length ≤ M.hashLen := by
  simpa [compute, hashLen_eq] using ((M.initialize K).absorb m).finish_length_le

/-! ### HKDF (rules R351, R352, R355) -/

/-- The salt of an extraction fits the key's length register: an omitted one is as long as the input (rule R351). -/
theorem hkdfExtract_inv {M : Hmac} (h : M.Inv) {salt : Option Bytes} {ikm : Bytes}
    (hsalt : ∀ x, salt = some x → x.length < 2 ^ 32) (hikm : ikm.length < 2 ^ 32) : (hkdfExtract salt ikm M).2.Inv := by
  refine Hmac.compute_inv h ?_ ikm
  cases salt with
  | none => simpa using hikm
  | some x => exact hsalt x rfl

theorem hkdfExtract_length_le (salt : Option Bytes) (ikm : Bytes) (M : Hmac) :
    (hkdfExtract salt ikm M).1.length ≤ M.hashLen :=
  M.compute_length_le _ _

theorem hkdfBlocks_inv {M : Hmac} (h : M.Inv) {prk : Bytes} (hprk : prk.length < 2 ^ 32) (info : Bytes) (n i : Nat)
    (T : Bytes) : (hkdfBlocks prk info n i T M).2.Inv := by
  induction n generalizing i T M with
  | zero => exact h
  | succ n ih => exact ih (Hmac.compute_inv h hprk _) _ _

theorem hkdfExpand_inv {M : Hmac} (h : M.Inv) {prk : Bytes} (hprk : prk.length < 2 ^ 32) (info : Bytes) (length : Nat) :
    (hkdfExpand prk info length M).2.Inv :=
  hkdfBlocks_inv h hprk info _ _ _

theorem hkdfExpand_length_le (prk info : Bytes) (length : Nat) (M : Hmac) :
    (hkdfExpand prk info length M).1.length ≤ length := by
  simp [hkdfExpand]

/-- The pseudorandom key between the two phases is a digest, so it fits the key's length register. -/
theorem hkdfDerive_inv {M : Hmac} (h : M.Inv) {salt : Option Bytes} {data : Bytes}
    (hsalt : ∀ x, salt = some x → x.length < 2 ^ 32) (hdata : data.length < 2 ^ 32) (info : Bytes) (length : Nat) :
    (hkdfDerive salt data info length M).2.Inv := by
  have hprk := hkdfExtract_length_le salt data M
  have hhash : M.hashLen ≤ 64 := h.cfg.hashLen_le
  exact hkdfExpand_inv (hkdfExtract_inv h hsalt hdata) (hprk.trans_lt (by omega)) info length

theorem hkdfDerive_length_le (salt : Option Bytes) (data info : Bytes) (length : Nat) (M : Hmac) :
    (hkdfDerive salt data info length M).1.length ≤ length :=
  hkdfExpand_length_le _ _ _ _

/-! ### PBKDF2 (rules R362, R364, R365) -/

/-- A MAC of one message by an initialised HMAC leaves it initialised and inside the invariant. -/
theorem Hmac.absorb_finish_inv {M : Hmac} (h : M.Inv) (hinit : M.init = true) (m : Bytes) :
    (M.absorb m).finish.2.Inv ∧ (M.absorb m).finish.2.init = true :=
  ⟨finish_inv (absorb_inv h hinit m) hinit, hinit⟩

theorem pbkdf2Iterate_inv {M : Hmac} (h : M.Inv) (hinit : M.init = true) (j : Nat) (U F : Bytes) :
    (pbkdf2Iterate j U F M).2.Inv ∧ (pbkdf2Iterate j U F M).2.init = true := by
  induction j generalizing U F M with
  | zero => exact ⟨h, hinit⟩
  | succ j ih =>
    obtain ⟨h', hinit'⟩ := Hmac.absorb_finish_inv h hinit U
    exact ih h' hinit' _ _

theorem pbkdf2Block_inv {M : Hmac} (h : M.Inv) (hinit : M.init = true) (salt : Bytes) (c i : Nat) :
    (pbkdf2Block salt c i M).2.Inv ∧ (pbkdf2Block salt c i M).2.init = true := by
  obtain ⟨h', hinit'⟩ := Hmac.absorb_finish_inv h hinit (salt ++ beBytes 4 i)
  exact pbkdf2Iterate_inv h' hinit' _ _ _

theorem pbkdf2Blocks_inv {M : Hmac} (h : M.Inv) (hinit : M.init = true) (salt : Bytes) (c n i : Nat) :
    (pbkdf2Blocks salt c n i M).2.Inv := by
  induction n generalizing i M with
  | zero => exact h
  | succ n ih =>
    obtain ⟨h', hinit'⟩ := pbkdf2Block_inv h hinit salt c i
    exact ih h' hinit' _

theorem pbkdf2Derive_inv {M : Hmac} (h : M.Inv) {P : Bytes} (hP : P.length < 2 ^ 32) (salt : Bytes) (c L : Nat) :
    (pbkdf2Derive P salt c L M).2.Inv :=
  pbkdf2Blocks_inv (Hmac.initialize_inv h hP) rfl _ _ _ _

theorem pbkdf2Derive_length_le (P salt : Bytes) (c L : Nat) (M : Hmac) : (pbkdf2Derive P salt c L M).1.length ≤ L := by
  simp [pbkdf2Derive]

/-- A clamped signed word is a legal iteration count (rules R37, R364). -/
theorem clampIter_toInt_bounds (v : Word) : 1 ≤ clampIter v.toInt ∧ clampIter v.toInt ≤ 2 ^ 31 - 1 := by
  have h := BitVec.toInt_lt (x := v)
  unfold clampIter
  split <;> omega

/-! ### Objects and streams -/

theorem Obj.refresh_inv {obj : Obj} (h : obj.Inv) : obj.refresh.Inv := by
  cases obj with
  | empty => trivial
  | hash e => exact Engine.fresh_inv (Engine.Inv.cfg h)
  | hmac M => exact Hmac.refresh_inv h
  | hkdf M => exact Hmac.refresh_inv h
  | pbkdf2 M iters => exact ⟨Hmac.refresh_inv h.1, h.2⟩

/-- The invariant of the object a streaming command works on. -/
def Stream.Inv : Stream → Prop
  | .hash e => e.Inv
  | .hmac M => M.Inv

theorem Obj.asStream_inv {obj : Obj} {x : Stream} (h : obj.Inv) (hx : obj.asStream = some x) : x.Inv := by
  cases obj with
  | hash e | hmac M =>
    cases hx
    exact h
  | empty | hkdf M | pbkdf2 M iters => cases hx

/-- The state checks before an absorption are what `Absorb` requires: no engine absorbs while squeezing, no HMAC before
it is initialised (rule R383). -/
theorem Stream.absorb_inv {x : Stream} (h : x.Inv) {poison : Bool} (hready : ∀ t ∈ x.absorbChecks poison, t.1 = false)
    (s : Bytes) : (x.absorb s).Inv := by
  cases x with
  | hash e => exact Engine.absorb_inv h (by simpa [absorbChecks] using (List.forall_mem_cons.1 hready).2) s
  | hmac M => exact Hmac.absorb_inv h (by simpa [absorbChecks] using (List.forall_mem_cons.1 hready).2) s

theorem Stream.finish_inv {x : Stream} (h : x.Inv) {poison : Bool} (hready : ∀ t ∈ x.readyChecks poison, t.1 = false) :
    x.finish.2.Inv := by
  cases x with
  | hash e =>
    show (e.finish.2).Inv
    rw [Engine.finish_snd]
    exact Engine.fresh_inv (Engine.Inv.cfg h)
  | hmac M => exact Hmac.finish_inv h (by simpa [readyChecks] using (List.forall_mem_cons.1 hready).2)

theorem Stream.finish_length_le (x : Stream) : x.finish.1.length ≤ x.hashLen := by
  cases x with
  | hash e => exact e.finish_length_le
  | hmac M => exact M.finish_length_le

end Sys2Proof.Machine
end

section
/-! SUPPORT. The updates a command or a host access makes to the state keep the invariant, and so do the shared
shapes of a command (10_state.md rules R23 to R25, R31, R41; 60_exceptions.md rules R385 to R387). -/

namespace Sys2Proof.Machine

/-! ### Hardware reset (rules R44, R411) -/

theorem Regs.reset_inv : Regs.reset.Inv :=
  ⟨by decide, by decide, by decide, by decide, by decide⟩

theorem State.resetWith_inv {nctx : Nat} {memsz : Word} (epoch : Nat) (pending : List Event) (hlow : 1 ≤ nctx)
    (hhigh : nctx ≤ 16) (hmem : 1 ≤ memsz.toNat) : (State.resetWith nctx memsz epoch pending).Inv where
  reg := Regs.reset_inv
  nctx := by simpa [State.nctx, resetWith] using ⟨hlow, hhigh⟩
  memsz := hmem
  memory := List.Pairwise.nil
  within := by simp [resetWith]
  context := by
    intro x hx
    obtain rfl : x = Context.fresh := List.eq_of_mem_replicate hx
    exact ⟨trivial, fun _ => rfl⟩

/-! ### The register block -/

/-- The codes of a failure are 1 to 4, so its `ERRLOG` bit is one of the four (rules R25, R380). -/
theorem ErrCode.word_and_logBit (e : ErrCode) : e.logBit &&& ~~~0x1E = 0 ∧ e.logBit.getLsbD e.word.toNat = true ∧
    e.word.toNat ≤ 4 ∧ e.word ≠ 0 := by
  cases e <;> decide

theorem Regs.Inv.success {r : Regs} (h : r.Inv) (result : Word) :
    Regs.Inv { r with err := 0, status := statusWord false, result := result } :=
  ⟨Nat.zero_le 4, rfl, fun h => absurd rfl h, fun h => absurd rfl h, h.errlog⟩

theorem Regs.Inv.failure {r : Regs} (h : r.Inv) (e : ErrCode) :
    Regs.Inv { r with err := e.word, status := statusWord true, result := 0, errlog := r.errlog ||| e.logBit } := by
  obtain ⟨hmask, hbit, hcode, hne⟩ := e.word_and_logBit
  refine ⟨hcode, (if_neg hne).symm, fun _ => rfl, fun _ => by simp [hbit], ?_⟩
  simp only [BitVec.and_or_distrib_right, h.errlog, hmask]
  rfl

theorem Regs.Inv.of_report_eq {r r' : Regs} (h : r.Inv) (herr : r'.err = r.err) (hstatus : r'.status = r.status)
    (hlog : r'.errlog = r.errlog) (hresult : r'.result = r.result) : r'.Inv := by
  obtain ⟨h1, h2, h3, h4, h5⟩ := h
  exact ⟨by rwa [herr], by rwa [hstatus, herr], by rwa [herr, hresult], by rwa [herr, hlog], by rwa [hlog]⟩

/-! ### The state -/

theorem State.Inv.reportSuccess {s : State} (h : s.Inv) (r : Nat) : (reportSuccess r s).Inv :=
  { h with reg := h.reg.success _ }

theorem State.Inv.reportFailure {s : State} (h : s.Inv) (e : ErrCode) : (reportFailure e s).Inv :=
  { h with reg := h.reg.failure e }

theorem State.Inv.storeCmd {s : State} (h : s.Inv) (w : Word) : (storeCmd w s).Inv :=
  { h with reg := h.reg.of_report_eq rfl rfl rfl rfl }

theorem State.Inv.withPending {s : State} (h : s.Inv) (es : List Event) : State.Inv { s with pending := es } :=
  { h with }

theorem State.Inv.writeReg {s : State} (h : s.Inv) (offset : Nat) (v : Word) : (writeReg offset v s).Inv := by
  obtain ⟨hmemsz, hmem, hctx, -⟩ := writeReg_frame offset v s
  obtain ⟨herr, hstatus, hlog, hresult, -⟩ := writeReg_report offset v s
  refine ⟨h.reg.of_report_eq herr hstatus hlog hresult, ?_, ?_, ?_, ?_, ?_⟩
  · simpa [State.nctx, hctx] using h.nctx
  · simpa [State.memBytes, hmemsz] using h.memsz
  · simpa [hmem] using h.memory
  · simpa [State.memBytes, hmemsz, hmem] using h.within
  · simpa [hctx] using h.context

theorem State.Inv.writeMem {s : State} (h : s.Inv) (a : Nat) (out : Bytes) (hle : a + out.length ≤ s.memBytes) :
    (s.writeMem a out).Inv :=
  { h with memory := Memory.writeBytes_wf h.memory a out, within := Memory.writeBytes_within h.within a out hle }

theorem State.Inv.setCtx {s : State} (h : s.Inv) (c : CtxId) {x : Context} (hx : x.Inv) : (s.setCtx c x).Inv where
  reg := h.reg
  nctx := by simpa [State.nctx] using h.nctx
  memsz := h.memsz
  memory := h.memory
  within := h.within
  context y hy := (List.mem_or_eq_of_mem_set hy).elim (h.context y) fun heq => heq ▸ hx

theorem State.Inv.setObj {s : State} (h : s.Inv) (c : CtxId) {obj : Obj} (hobj : obj.Inv) : (s.setObj c obj).Inv :=
  h.setCtx c ⟨hobj, fun _ => rfl⟩

theorem State.Inv.ctxAt {s : State} (h : s.Inv) {c : CtxId} {x : Context} (hx : s.ctxAt c = some x) : x.Inv :=
  h.context x (List.mem_of_getElem? hx)

/-- A context that holds an object may be poisoned (rule R31). -/
theorem State.Inv.poisonCtx {s : State} (h : s.Inv) {c : CtxId} (hne : ∀ x, s.ctxAt c = some x → x.obj ≠ .empty) :
    (poisonCtx c s).Inv := by
  unfold Machine.poisonCtx
  split
  · exact h
  next x hx => exact h.setCtx c ⟨(h.ctxAt hx).obj, fun hempty => absurd hempty (hne x hx)⟩

/-- An error is taken inside the invariant, if a poisoned context holds an object (rules R385 to R387). -/
theorem State.Inv.takeError {s : State} (h : s.Inv) {session : Bool} {c : CtxId} {e : ErrCode}
    (hne : poisons session e = true → ∀ x, s.ctxAt c = some x → x.obj ≠ .empty) : (takeError session c e s).Inv := by
  unfold Machine.takeError
  split
  next hpoison => exact (h.poisonCtx (hne hpoison)).reportFailure e
  next => exact h.reportFailure e

/-! ### Operands -/

/-- A buffer is shorter than `2^32` bytes, because its size is a register (rules R27, R29). -/
def Buffer.Fits (X : Buffer) : Prop := X.size < 2 ^ 32

theorem State.src_fits (s : State) : s.src.Fits := s.reg.srcSize.isLt
theorem State.key_fits (s : State) : s.key.Fits := s.reg.keySize.isLt
theorem State.salt_fits (s : State) : s.salt.Fits := s.reg.saltSize.isLt
theorem State.aux_fits (s : State) : s.aux.Fits := s.reg.auxSize.isLt
theorem State.name_fits (s : State) : s.name.Fits := s.reg.nameSize.isLt

@[simp] theorem State.whole_length (s : State) (X : Buffer) : (s.whole X).length = X.size := by simp [whole]

theorem State.wholeIf_length {s : State} {present : Bool} {X : Buffer} {x : Bytes}
    (h : s.wholeIf present X = some x) : present = true ∧ x.length = X.size := by
  cases present with
  | false => cases h
  | true =>
    cases h
    exact ⟨rfl, s.whole_length X⟩

theorem State.wholeIf_getD_length_le (s : State) (present : Bool) (X : Buffer) :
    ((s.wholeIf present X).getD []).length ≤ X.size := by
  cases present <;> simp [wholeIf]

theorem State.wholeIf_fits {s : State} {present : Bool} {X : Buffer} (hX : X.Fits) (x : Bytes)
    (h : s.wholeIf present X = some x) : x.length < 2 ^ 32 :=
  (wholeIf_length h).2 ▸ hX

/-- An output that passed its checks is written inside operand memory (rules R73, R74). -/
theorem State.Inv.output {s : State} (h : s.Inv) {o n : Nat} (hchecks : ∀ t ∈ s.dstChecks o n, t.1 = false) {out : Bytes}
    (hout : out.length ≤ n) : (s.output o out).Inv := by
  obtain ⟨hmem, hdst⟩ : s.dst.base + s.dst.size ≤ s.memBytes ∧ o + n ≤ s.dst.size := by
    simpa [dstChecks, memCheck] using hchecks
  exact h.writeMem _ _ (by omega)

/-! ### The shape of a command -/

/-- Every next state the outcome can be is inside the invariant. -/
def KeepsInv (o : Host.Outcome State Fault Refusal) : Prop := ∀ t, o = .next t → t.Inv

/-- A success leaves a state inside the invariant. -/
def Verdict.Keeps (v : Verdict) : Prop := ∀ s' r, v = .ok s' r → s'.Inv

theorem Verdict.keeps_ok {s : State} (h : s.Inv) (r : Nat) : (Verdict.ok s r).Keeps := by
  intro s' r' heq
  cases heq
  exact h

theorem Verdict.keeps_err (e : ErrCode) : (Verdict.err e).Keeps := fun _ _ heq => by cases heq

theorem checked_keeps {cs : List Check} {k : Unit → Verdict} (h : (∀ t ∈ cs, t.1 = false) → (k ()).Keeps) :
    (checked cs k).Keeps := fun s' r hok =>
  h (checked_ok hok).1 s' r (checked_ok hok).2

theorem named_keeps {α : Type} {c : CtxId} {s : State} (hs : s.Inv) {accept : Obj → Option α} {k : Bool → α → Verdict}
    (h : ∀ obj poison a, obj.Inv → accept obj = some a → (k poison a).Keeps) : (named c s accept k).Keeps := by
  intro s' r hok
  obtain ⟨x, a, hx, ha, hk⟩ := named_ok hok
  exact h x.obj x.poison a (hs.ctxAt hx).obj ha s' r hk

/-- The end of a command that names a context: a success as the command's own effect says, and a failure of a session
command poisons only a context of an accepting kind, which is not `EMPTY` (rules R107, R387). -/
theorem finishCommand_keepsInv {α : Type} {session : Bool} {c : CtxId} {s : State} (hs : s.Inv)
    {accept : Obj → Option α} (haccept : session = true → accept .empty = none) {k : Bool → α → Verdict}
    (h : ∀ obj poison a, obj.Inv → accept obj = some a → (k poison a).Keeps) :
    KeepsInv (finishCommand session c s (named c s accept k)) := by
  intro t ht
  obtain ⟨s', r, hok, rfl⟩ | ⟨e, herr, rfl⟩ := finishCommand_next ht
  · exact (named_keeps hs h s' r hok).reportSuccess r
  · refine hs.takeError fun hpoison x hx hempty => ?_
    obtain rfl | ⟨y, a, hy, ha, -⟩ := named_err herr
    · cases hpoison
    · obtain rfl : x = y := Option.some.inj (hx.symm.trans hy)
      have hsession : session = true := by
        cases e with
        | illegalCommand => cases hpoison
        | invalidParameter | rangeError | stateError => exact hpoison
      rw [hempty, haccept hsession] at ha
      cases ha

end Sys2Proof.Machine
end

section
/-! SUPPORT. Every command and every host move keeps the invariant and has a successor; with them the scope statements
O11, O25 and O26 (00_scope.md rules R5 to R7; 60_exceptions.md rule R389). -/

namespace Sys2Proof.Machine

/-! ### Kinds (rule R107) -/

theorem Obj.asHash_inv {obj : Obj} {e : Engine} (h : obj.Inv) (he : obj.asHash = some e) : e.Inv := by
  cases obj with
  | hash e =>
    cases he
    exact h
  | empty | hmac M | hkdf M | pbkdf2 M iters => cases he

theorem Obj.asXof_inv {obj : Obj} {e : Sponge} (h : obj.Inv) (he : obj.asXof = some e) : e.Inv ∧ e.cfg.isXof = true := by
  cases obj with
  | hash e' =>
    cases e' with
    | sponge e' =>
      simp only [asXof, Option.ite_none_right_eq_some, Option.some.injEq] at he
      obtain ⟨hx, rfl⟩ := he
      exact ⟨h, hx⟩
    | md e' | blake e' => cases he
  | empty | hmac M | hkdf M | pbkdf2 M iters => cases he

theorem Obj.asHmac_inv {obj : Obj} {M : Hmac} (h : obj.Inv) (hM : obj.asHmac = some M) : M.Inv := by
  cases obj with
  | hmac M =>
    cases hM
    exact h
  | empty | hash e | hkdf M | pbkdf2 M iters => cases hM

theorem Obj.asHkdf_inv {obj : Obj} {M : Hmac} (h : obj.Inv) (hM : obj.asHkdf = some M) : M.Inv := by
  cases obj with
  | hkdf M =>
    cases hM
    exact h
  | empty | hash e | hmac M | pbkdf2 M iters => cases hM

theorem Obj.asPbkdf2_inv {obj : Obj} {x : Hmac × Nat} (h : obj.Inv) (hx : obj.asPbkdf2 = some x) :
    (Obj.pbkdf2 x.1 x.2).Inv := by
  cases obj with
  | pbkdf2 M iters =>
    cases hx
    exact h
  | empty | hash e | hmac M | hkdf M => cases hx

theorem Obj.asAny_inv {obj a : Obj} (h : obj.Inv) (ha : obj.asAny = some a) : a.Inv := by
  cases obj with
  | empty => cases ha
  | hash e | hmac M | hkdf M | pbkdf2 M iters =>
    cases ha
    exact h

/-! ### The families of commands -/

section
variable {s : State} (hs : s.Inv)
include hs

theorem construct_keepsInv (c : CtxId) {checks : List Check} {obj : Unit → Obj}
    (h : (∀ t ∈ checks, t.1 = false) → (obj ()).Inv) : KeepsInv (construct c s checks obj) :=
  finishCommand_keepsInv hs (by simp) fun _ _ _ _ _ =>
    checked_keeps fun hpass => Verdict.keeps_ok (hs.setObj c (h hpass)) 0

theorem wrap_keepsInv {α : Type} (c : CtxId) {accept : Obj → Option α} {obj : α → Obj}
    (h : ∀ x a, x.Inv → accept x = some a → (obj a).Inv) : KeepsInv (wrap c s accept obj) :=
  finishCommand_keepsInv hs (by simp) fun x _ a hx ha =>
    checked_keeps fun _ => Verdict.keeps_ok (hs.setObj c (h x a hx ha)) 0

/-- A command that reads a context and changes none. -/
theorem reading_keepsInv {α : Type} (c : CtxId) (accept : Obj → Option α) (r : α → Nat) :
    KeepsInv (finishCommand false c s (named c s accept fun _ a => .ok s (r a))) :=
  finishCommand_keepsInv hs (by simp) fun _ _ _ _ _ => Verdict.keeps_ok hs _

theorem absorbing_keepsInv (c : CtxId) (checks : List Check) (input : Unit → Bytes) :
    KeepsInv (absorbing c s checks input) :=
  finishCommand_keepsInv hs (fun _ => rfl) fun _ _ _ hobj hx => checked_keeps fun hpass =>
    Verdict.keeps_ok (hs.setObj c (Stream.absorb_inv (Obj.asStream_inv hobj hx)
      (fun t ht => hpass t (List.mem_append_left _ ht)) _)) 0

/-- The effect of a command that writes its output and leaves an object in its context. -/
theorem deliver_keeps {o n : Nat} (hchecks : ∀ t ∈ s.dstChecks o n, t.1 = false) {out : Bytes} (hout : out.length ≤ n)
    (c : CtxId) {obj : Obj} (hobj : obj.Inv) (r : Nat) : (Verdict.ok ((s.output o out).setObj c obj) r).Keeps :=
  Verdict.keeps_ok ((hs.output hchecks hout).setObj c hobj) r

theorem finalising_keepsInv (c : CtxId) (o : Nat) : KeepsInv (finalising c s o) :=
  finishCommand_keepsInv hs (fun _ => rfl) fun _ _ x hobj hx => checked_keeps fun hpass =>
    deliver_keeps hs (fun t ht => hpass t (List.mem_append_right _ ht)) x.finish_length_le c
      (Stream.finish_inv (Obj.asStream_inv hobj hx) fun t ht => hpass t (List.mem_append_left _ ht)) _

theorem squeezing_keepsInv (c : CtxId) (o : Nat) (n : Sponge → Nat) {after : Sponge → Sponge}
    (h : ∀ e : Sponge, e.Inv → e.cfg.isXof = true → (after e).Inv) : KeepsInv (squeezing c s o n after) :=
  finishCommand_keepsInv hs (fun _ => rfl) fun _ _ e hobj he => checked_keeps fun hpass => by
    obtain ⟨hinv, hxof⟩ := Obj.asXof_inv hobj he
    exact deliver_keeps hs (fun t ht => hpass t (List.mem_cons_of_mem _ ht)) (by simp) c (obj := .hash (.sponge _))
      (h e hinv hxof) _

theorem computing_keepsInv (c : CtxId) (checks : List Check) (input : Unit → Bytes) :
    KeepsInv (computing c s checks input) :=
  finishCommand_keepsInv hs (fun _ => rfl) fun _ _ e _ _ => checked_keeps fun hpass =>
    Verdict.keeps_ok (hs.output (fun t ht => hpass t (List.mem_append_right _ ht)) (hashOf_length_le e.cfg _)) _

theorem computingXof_keepsInv (c : CtxId) (checks : List Check) (input : Unit → Bytes) :
    KeepsInv (computingXof c s checks input) :=
  finishCommand_keepsInv hs (fun _ => rfl) fun _ _ e _ _ => checked_keeps fun hpass =>
    Verdict.keeps_ok (hs.output (fun t ht => hpass t (List.mem_append_right _ ht)) (by simp [xofOf])) _

/-! ### Management and construction -/

theorem execReset_keepsInv (c : CtxId) : KeepsInv (execReset c s) :=
  finishCommand_keepsInv hs (by simp) fun _ _ _ hobj ha =>
    Verdict.keeps_ok (hs.setObj c (Obj.refresh_inv (Obj.asAny_inv hobj ha))) 0

theorem execClone_keepsInv (d src : CtxId) : KeepsInv (execClone d src s) :=
  finishCommand_keepsInv hs (by simp) fun _ _ _ _ _ => named_keeps hs fun _ _ _ hobj ha => by
    split
    · exact Verdict.keeps_err _
    · exact checked_keeps fun _ => Verdict.keeps_ok (hs.setObj d (Obj.refresh_inv (Obj.asAny_inv hobj ha))) 0

theorem execDispose_keepsInv (c : CtxId) : KeepsInv (execDispose c s) :=
  finishCommand_keepsInv hs (by simp) fun _ _ _ _ _ => Verdict.keeps_ok (hs.setObj c (obj := .empty) trivial) 0

theorem constructMd_keepsInv (c : CtxId) (alg : MdAlg) :
    KeepsInv (construct c s [] fun _ => .hash (.md (Md.fresh alg))) :=
  construct_keepsInv hs c fun _ => Md.fresh_inv alg

theorem constructSponge_keepsInv (c : CtxId) (checks : List Check) {cfg : Unit → SpongeCfg} (h : (cfg ()).Inv) :
    KeepsInv (construct c s checks fun u => .hash (.sponge (Sponge.fresh (cfg u)))) :=
  construct_keepsInv hs c fun _ => Sponge.fresh_inv h

theorem execNewCshake_keepsInv (c : CtxId) (namep auxp : Bool) : KeepsInv (execNewCshake c namep auxp s) :=
  construct_keepsInv hs c fun _ => Sponge.fresh_inv
    ⟨(s.wholeIf_getD_length_le namep s.name).trans_lt s.name_fits,
      (s.wholeIf_getD_length_le auxp s.aux).trans_lt s.aux_fits⟩

/-- The parameter checks of `NEW.BLAKE2B` are the bounds of its configuration (rules R35, R310). -/
theorem execNewBlake2b_keepsInv (c : CtxId) (keyp saltp auxp : Bool) :
    KeepsInv (execNewBlake2b c keyp saltp auxp s) :=
  construct_keepsInv hs c fun hpass => by
    simp only [List.forall_mem_cons, Bool.and_eq_false_imp, decide_eq_false_iff_not] at hpass
    obtain ⟨hdlen, hkey, hsalt, hpers, -⟩ := hpass
    refine Blake.fresh_inv ⟨by simp only; omega, ?_, fun x hx => ?_, fun x hx => ?_⟩
    · cases keyp with
      | false => simp [State.wholeIf]
      | true => simpa [State.wholeIf] using hkey rfl
    · obtain ⟨hp, hlength⟩ := State.wholeIf_length hx
      exact hlength.trans (not_not.1 (hsalt hp))
    · obtain ⟨hp, hlength⟩ := State.wholeIf_length hx
      exact hlength.trans (not_not.1 (hpers hp))

omit hs in
/-- The iteration count a command supplies is legal if the default one is (rules R37, R364). -/
theorem State.iterOr_bounds (iterp : Bool) {n : Nat} (h : 1 ≤ n ∧ n ≤ 2 ^ 31 - 1) :
    1 ≤ s.iterOr iterp n ∧ s.iterOr iterp n ≤ 2 ^ 31 - 1 := by
  cases iterp with
  | false => exact h
  | true => exact clampIter_toInt_bounds s.reg.param1

theorem execWrapHmac_keepsInv (c : CtxId) : KeepsInv (execWrapHmac c s) :=
  wrap_keepsInv hs c fun _ _ hobj he => Hmac.wrap_inv (Obj.asHash_inv hobj he).cfg

theorem execWrapHkdf_keepsInv (c : CtxId) : KeepsInv (execWrapHkdf c s) :=
  wrap_keepsInv hs c fun _ _ hobj hM => Hmac.refresh_inv (Obj.asHmac_inv hobj hM)

theorem execWrapPbkdf2_keepsInv (c : CtxId) (iterp : Bool) : KeepsInv (execWrapPbkdf2 c iterp s) :=
  wrap_keepsInv hs c fun _ _ hobj hM =>
    ⟨Hmac.refresh_inv (Obj.asHmac_inv hobj hM), State.iterOr_bounds iterp (by decide)⟩

theorem execNewPbkdf2_keepsInv (c : CtxId) (iterp : Bool) : KeepsInv (execNewPbkdf2 c iterp s) :=
  construct_keepsInv hs c fun _ => ⟨Hmac.wrap_inv trivial, State.iterOr_bounds iterp (by decide)⟩

/-! ### MAC and KDF -/

theorem execMinit_keepsInv (c : CtxId) : KeepsInv (execMinit c s) :=
  finishCommand_keepsInv hs (fun _ => rfl) fun _ _ _ hobj hM => checked_keeps fun _ =>
    Verdict.keeps_ok (hs.setObj c (obj := .hmac _)
      (Hmac.initialize_inv (Obj.asHmac_inv hobj hM) ((s.whole_length _).trans_lt s.key_fits))) 0

theorem execMch_keepsInv (c : CtxId) : KeepsInv (execMch c s) :=
  finishCommand_keepsInv hs (fun _ => rfl) fun _ _ M hobj hM => checked_keeps fun hpass =>
    deliver_keeps hs (fun t ht => hpass t (List.mem_append_right _ ht)) (M.compute_length_le _ _) c (obj := .hmac _)
      (Hmac.compute_inv (Obj.asHmac_inv hobj hM) ((s.whole_length _).trans_lt s.key_fits) _) _

theorem execHkdfExtract_keepsInv (c : CtxId) (saltp : Bool) : KeepsInv (execHkdfExtract c saltp s) :=
  finishCommand_keepsInv hs (fun _ => rfl) fun _ _ M hobj hM => checked_keeps fun hpass =>
    deliver_keeps hs (fun t ht => hpass t (List.mem_append_right _ ht)) (hkdfExtract_length_le _ _ M) c (obj := .hkdf _)
      (hkdfExtract_inv (Obj.asHkdf_inv hobj hM) (State.wholeIf_fits s.salt_fits)
        ((s.whole_length _).trans_lt s.src_fits)) _

theorem execHkdfExpand_keepsInv (c : CtxId) (auxp : Bool) : KeepsInv (execHkdfExpand c auxp s) :=
  finishCommand_keepsInv hs (fun _ => rfl) fun _ _ M hobj hM => checked_keeps fun hpass =>
    deliver_keeps hs (fun t ht => hpass t (List.mem_append_right _ ht)) (hkdfExpand_length_le _ _ _ M) c (obj := .hkdf _)
      (hkdfExpand_inv (Obj.asHkdf_inv hobj hM) ((s.whole_length _).trans_lt s.key_fits) _ _) _

theorem execHkdfDerive_keepsInv (c : CtxId) (saltp auxp : Bool) : KeepsInv (execHkdfDerive c saltp auxp s) :=
  finishCommand_keepsInv hs (fun _ => rfl) fun _ _ M hobj hM => checked_keeps fun hpass =>
    deliver_keeps hs (fun t ht => hpass t (List.mem_append_right _ ht)) (hkdfDerive_length_le _ _ _ _ M) c (obj := .hkdf _)
      (hkdfDerive_inv (Obj.asHkdf_inv hobj hM) (State.wholeIf_fits s.salt_fits)
        ((s.whole_length _).trans_lt s.src_fits) _ _) _

theorem execPbkdf2Derive_keepsInv (c : CtxId) (iterp : Bool) : KeepsInv (execPbkdf2Derive c iterp s) :=
  finishCommand_keepsInv hs (fun _ => rfl) fun _ _ x hobj hx => checked_keeps fun hpass => by
    obtain ⟨hM, hiters⟩ := Obj.asPbkdf2_inv hobj hx
    exact deliver_keeps hs (fun t ht => hpass t (List.mem_append_right _ ht)) (pbkdf2Derive_length_le _ _ _ _ x.1) c
      (obj := .pbkdf2 _ _) ⟨pbkdf2Derive_inv hM ((s.whole_length _).trans_lt s.src_fits) _ _ _, hiters⟩ _

/-! ### Every command -/

theorem exec_keepsInv (i : Instr) : KeepsInv (exec i s) := by
  cases i with
  | reset c => exact execReset_keepsInv hs c
  | clone d src => exact execClone_keepsInv hs d src
  | dispose c => exact execDispose_keepsInv hs c
  | getalg c => exact reading_keepsInv hs c Obj.asAny Obj.algId
  | gethlen c => exact reading_keepsInv hs c Obj.asAny Obj.hashLen
  | getblen c => exact reading_keepsInv hs c Obj.asAny Obj.blockLen
  | gethf c => exact reading_keepsInv hs c Obj.asHmac fun M => M.cfg.algId
  | newSha1 c => exact constructMd_keepsInv hs c .sha1
  | newSha256 c => exact constructMd_keepsInv hs c .sha256
  | newSha512 c => exact constructMd_keepsInv hs c .sha512
  | newSha3 c => exact constructSponge_keepsInv hs c _ (cfg := fun _ => .sha3 _) trivial
  | newShake c => exact constructSponge_keepsInv hs c _ (cfg := fun _ => .shake _) trivial
  | newCshake c namep auxp => exact execNewCshake_keepsInv hs c namep auxp
  | newBlake2b c keyp saltp auxp => exact execNewBlake2b_keepsInv hs c keyp saltp auxp
  | wrapHmac c => exact execWrapHmac_keepsInv hs c
  | wrapHkdf c => exact execWrapHkdf_keepsInv hs c
  | wrapPbkdf2 c iterp => exact execWrapPbkdf2_keepsInv hs c iterp
  | newPbkdf2 c iterp => exact execNewPbkdf2_keepsInv hs c iterp
  | updb c b => exact absorbing_keepsInv hs c [] fun _ => [b]
  | upd c => exact absorbing_keepsInv hs c [s.memCheck s.src] fun _ => s.whole s.src
  | updr c => exact absorbing_keepsInv hs c s.rangeChecks fun _ => s.srcRange
  | fin c => exact finalising_keepsInv hs c 0
  | fino c => exact finalising_keepsInv hs c s.dstStart
  | finol c => exact squeezing_keepsInv hs c _ (fun _ => s.dstLen) fun _ he _ => Sponge.fresh_inv he.cfg
  | out c => exact squeezing_keepsInv hs c _ (fun e => e.cfg.hashLen) fun _ he hx => Sponge.squeeze_inv he hx _
  | outl c => exact squeezing_keepsInv hs c _ (fun _ => s.dstLen) fun _ he hx => Sponge.squeeze_inv he hx _
  | ch c => exact computing_keepsInv hs c [s.memCheck s.src] fun _ => s.whole s.src
  | chr c => exact computing_keepsInv hs c s.rangeChecks fun _ => s.srcRange
  | chl c => exact computingXof_keepsInv hs c [s.memCheck s.src] fun _ => s.whole s.src
  | chrl c => exact computingXof_keepsInv hs c s.rangeChecks fun _ => s.srcRange
  | minit c => exact execMinit_keepsInv hs c
  | mch c => exact execMch_keepsInv hs c
  | hkdfExtract c saltp => exact execHkdfExtract_keepsInv hs c saltp
  | hkdfExpand c auxp => exact execHkdfExpand_keepsInv hs c auxp
  | hkdfDerive c saltp auxp => exact execHkdfDerive_keepsInv hs c saltp auxp
  | pbkdf2Derive c iterp => exact execPbkdf2Derive_keepsInv hs c iterp

theorem issue_keepsInv (w : Word) : KeepsInv (issue w s) := by
  have hcmd := hs.storeCmd w
  unfold issue
  split
  · intro t ht
    cases ht
    exact hcmd.reportFailure _
  · exact exec_keepsInv hcmd _

end

/-! ### The host's moves -/

theorem keepsInv_next {s : State} (h : s.Inv) : KeepsInv (.next s) := by
  intro t ht
  cases ht
  exact h

/-- A register access the spec defines goes on; the others stop (rules R70, R71). -/
theorem regAccess_keepsInv {offset width : Nat} {k : Host.Outcome State Fault Refusal} (h : KeepsInv k) :
    KeepsInv (regAccess offset width k) := by
  unfold regAccess
  split
  · exact fun _ ht => by cases ht
  · split
    · exact fun _ ht => by cases ht
    · exact h

/-- A memory access that goes on is inside operand memory (rule R72). -/
theorem memAccess_keepsInv {s : State} {addr width : Nat} {k : Host.Outcome State Fault Refusal}
    (h : addr + width ≤ s.memBytes → KeepsInv k) : KeepsInv (memAccess s addr width k) := by
  unfold memAccess
  split
  · exact fun _ ht => by cases ht
  · split
    · exact fun _ ht => by cases ht
    next hle => exact h (by omega)

theorem hardReset_inv {s : State} (h : s.Inv) : (hardReset s).Inv :=
  State.resetWith_inv _ _ h.nctx.1 h.nctx.2 h.memsz

theorem perform_keepsInv {s : State} (h : s.Inv) (e : Event) : KeepsInv (perform e s) := by
  cases e with
  | regWrite offset width v =>
    refine regAccess_keepsInv ?_
    split
    · exact issue_keepsInv h v
    · exact keepsInv_next (h.writeReg offset v)
  | regRead offset width => exact regAccess_keepsInv (keepsInv_next h)
  | memWrite addr width v =>
    exact memAccess_keepsInv fun hle => keepsInv_next (h.writeMem addr _ (by simpa [hostBytes] using hle))
  | memRead addr width => exact memAccess_keepsInv fun _ => keepsInv_next h
  | hardReset => exact keepsInv_next (hardReset_inv h)

theorem step_keepsInv {s : State} (h : s.Inv) : KeepsInv (step s) := by
  unfold step advance
  split
  · exact keepsInv_next h
  next e es _ => exact perform_keepsInv (h.withPending es) e

/-! ### Successors (rules R6, R389) -/

/-- Every command ends in a next state: each is a `finishCommand`. -/
theorem exec_isNext (i : Instr) (s : State) : ∃ t, exec i s = .next t := by
  cases i <;> exact finishCommand_isNext _ _ _ _

theorem issue_isNext (w : Word) (s : State) : ∃ t, issue w s = .next t := by
  unfold issue
  split
  · exact ⟨_, rfl⟩
  · exact exec_isNext _ _

theorem regAccess_of_defined {offset width : Nat} (hwidth : width = 4) (halign : offset % 4 = 0) (hlt : offset < 256)
    (k : Host.Outcome State Fault Refusal) : regAccess offset width k = k := by
  rw [regAccess, if_neg (not_not.2 ⟨hwidth, halign⟩), if_neg (by omega)]

theorem memAccess_of_defined {s : State} {addr width : Nat} (hwidth : width = 1 ∨ width = 2 ∨ width = 4)
    (hle : addr + width ≤ s.memBytes) (k : Host.Outcome State Fault Refusal) : memAccess s addr width k = k := by
  rw [memAccess, if_neg (not_not.2 hwidth), if_neg (by omega)]

/-- A move the spec gives the host meets no stop (rules R71, R72). -/
theorem perform_isNext {e : Event} {s : State} (h : e.defined s = true) : ∃ t, perform e s = .next t := by
  cases e with
  | regWrite offset width v =>
    simp only [Event.defined, Bool.and_eq_true, beq_iff_eq, decide_eq_true_eq] at h
    obtain ⟨⟨hwidth, halign⟩, hlt⟩ := h
    simp only [perform, regAccess_of_defined hwidth halign hlt]
    split
    · exact issue_isNext v s
    · exact ⟨_, rfl⟩
  | regRead offset width =>
    simp only [Event.defined, Bool.and_eq_true, beq_iff_eq, decide_eq_true_eq] at h
    obtain ⟨⟨hwidth, halign⟩, hlt⟩ := h
    exact ⟨s, regAccess_of_defined hwidth halign hlt _⟩
  | memWrite addr width v =>
    simp only [Event.defined, Bool.and_eq_true, Bool.or_eq_true, beq_iff_eq, decide_eq_true_eq, or_assoc] at h
    exact ⟨_, memAccess_of_defined h.1 h.2 _⟩
  | memRead addr width =>
    simp only [Event.defined, Bool.and_eq_true, Bool.or_eq_true, beq_iff_eq, decide_eq_true_eq, or_assoc] at h
    exact ⟨s, memAccess_of_defined h.1 h.2 _⟩
  | hardReset => exact ⟨_, rfl⟩

end Sys2Proof.Machine
end

section
open Sys2Proof Sys2Proof.Machine

/-- Settles O26: each family of commands and each host move keeps the invariant. -/
theorem stepKeepsTheInvariant : Obligations.StepKeepsTheInvariant := by
  unfold Obligations.StepKeepsTheInvariant
  intro s t hs ht
  exact step_keepsInv hs t ht

/-- Settles O11: a command always ends in a next state, and a defined access meets no stop. -/
theorem everyHostMoveHasASuccessor : Obligations.EveryHostMoveHasASuccessor := by
  unfold Obligations.EveryHostMoveHasASuccessor
  intro s hdefined
  unfold step advance
  split
  · exact ⟨s, rfl⟩
  next e es hpending => exact perform_isNext (s := { s with pending := es }) (hdefined e es hpending)

/-- Settles O25: `State.reset` is one of the reset states in the parameters' range. -/
theorem resetIsInsideTheInvariant : Obligations.ResetIsInsideTheInvariant := by
  unfold Obligations.ResetIsInsideTheInvariant
  refine ⟨State.resetWith_inv 0 [] (by decide) (by decide) (by decide), ?_⟩
  intro nctx memsz epoch pending hlow hhigh hmem
  exact State.resetWith_inv epoch pending hlow hhigh (Nat.pos_of_ne_zero fun hzero => hmem (BitVec.eq_of_toNat_eq hzero))

end

section
/-! SUPPORT. What a command can do, said once: the two reports, the effect of a success on the state, and the code of a
failure against the tables of causes (40_engine_contract.md rule R136; 60_exceptions.md rules R381 to R388). -/

namespace Sys2Proof.Machine

/-! ### The two reports (rules R23 to R25, R385) -/

/-- The register block after a command's report, for the block `r` before it. -/
inductive Reported (r : Regs) : Regs → Prop
  | success (result : Word) : Reported r { r with err := 0, status := statusWord false, result := result }
  | failure (e : ErrCode) : Reported r
      { r with err := e.word, status := statusWord true, result := 0, errlog := r.errlog ||| e.logBit }

theorem ErrCode.logBit_eq (e : ErrCode) : e.logBit = BitVec.ofNat 32 (2 ^ e.word.toNat) := by
  cases e <;> decide

section
variable {r r' : Regs} (h : Reported r r')
include h

/-- The code in `ERR` fixes `STATUS`, the bit a failure adds to `ERRLOG`, and `RESULT` after a failure. -/
theorem Reported.byCode : r'.err.toNat ≤ 4 ∧ r'.status = (if r'.err = 0 then 0 else 2) ∧
    r'.errlog = (if r'.err = 0 then r.errlog else r.errlog ||| BitVec.ofNat 32 (2 ^ r'.err.toNat)) ∧
    (r'.err ≠ 0 → r'.result = 0) := by
  cases h with
  | success result => simp [statusWord]
  | failure e =>
    obtain ⟨-, -, hcode, hne⟩ := e.word_and_logBit
    exact ⟨hcode, (if_neg hne).symm, by rw [if_neg hne, e.logBit_eq], fun _ => rfl⟩

theorem Reported.frame :
    r' = { r with err := r'.err, status := r'.status, errlog := r'.errlog, result := r'.result } := by
  cases h <;> rfl

/-- The bits of `ERRLOG` that stand for no code stay 0 (rule R25). -/
theorem Reported.unusedBits (hr : r.errlog &&& ~~~0x1E = 0) : r'.errlog &&& ~~~0x1E = 0 := by
  cases h with
  | success result => exact hr
  | failure e =>
    simp only [BitVec.and_or_distrib_right, hr, e.word_and_logBit.1]
    rfl

end

theorem reportSuccess_reported (r : Nat) (s : State) : Reported s.reg (reportSuccess r s).reg := .success _

theorem takeError_reported (session : Bool) (c : CtxId) (e : ErrCode) (s : State) :
    Reported s.reg (takeError session c e s).reg := by
  rw [takeError_eq]
  split <;> exact .failure e

/-! ### The effect of a success -/

/-- The commands that give a context another object, not the next state of the one it holds: the constructions, `CLONE`
and `DISPOSE` (rules R30, R162). -/
def Reconfigures (i : Instr) : Prop :=
  isNew i = true ∨ isWrap i = true ∨ (∃ d src, i = .clone d src) ∨ ∃ c, i = .dispose c

/-- What a success leaves before its report: operand memory aside, the state as it was or another object in the target,
not poisoned. -/
inductive Effect (i : Instr) (s : State) : State → Prop
  | reading (m : Memory) : Effect i s { s with mem := m }
  | writing (m : Memory) {obj : Obj} (hclass : (clearsPoison i || isSession i || isWrap i) = true)
      (hfixed : Reconfigures i ∨ obj.fixedPart = (s.objAt i.target).fixedPart) :
      Effect i s (State.setObj { s with mem := m } i.target obj)

/-- The two ways a command ends, with the code of the tables (rules R384 to R387). -/
inductive Ends (i : Instr) (s : State) : Host.Outcome State Fault Refusal → Prop
  | success {s' : State} (r : Nat) (hcode : errorCode i s = 0) (heffect : Effect i s s') :
      Ends i s (.next (reportSuccess r s'))
  | failure (e : ErrCode) (hcode : errorCode i s = e.code) :
      Ends i s (.next (takeError (isSession i) i.target e s))

/-! ### The levels of the checks (rule R384) -/

/-- Tests in the order of the levels 3 to 5. -/
def levels (state parameter range : List Bool) : List Check :=
  state.map (·, .stateError) ++ (parameter.map (·, .invalidParameter) ++ range.map (·, .rangeError))

/-- The tests stand in the order of the levels, and at each level they are the causes in the command's table. -/
inductive Causes (i : Instr) (s : State) : List Check → Prop
  | intro (state parameter range : List Bool) (hstate : state.any id = stateError i s)
      (hparameter : parameter.any id = parameterError i s) (hrange : range.any id = rangeError i s) :
      Causes i s (levels state parameter range)

theorem checked_level (e : ErrCode) (failed : List Bool) (cs : List Check) (k : Unit → Verdict) :
    checked (failed.map (·, e) ++ cs) k = if failed.any id then .err e else checked cs k := by
  induction failed with
  | nil => rfl
  | cons b failed ih => cases b <;> simp [ih]

theorem Causes.checked_eq {i : Instr} {s : State} {cs : List Check} (h : Causes i s cs) (k : Unit → Verdict) :
    checked cs k = if stateError i s then .err .stateError else if parameterError i s then .err .invalidParameter
      else if rangeError i s then .err .rangeError else k () := by
  obtain ⟨state, parameter, range, hstate, hparameter, hrange⟩ := h
  have hlast := checked_level .rangeError range [] k
  rw [List.append_nil] at hlast
  rw [levels, checked_level, checked_level, hlast, hstate, hparameter, hrange]
  rfl

theorem errorCode_of_illegal {i : Instr} {s : State} (h : illegal i s = true) : errorCode i s = 4 := if_pos h

/-- A command whose checks are its table's causes ends as the tables say. -/
theorem Causes.ends {i : Instr} {s s' : State} {cs : List Check} (h : Causes i s cs) (hlegal : illegal i s = false)
    (heffect : Effect i s s') (r : Nat) :
    Ends i s (finishCommand (isSession i) i.target s (checked cs fun _ => .ok s' r)) := by
  have hcode : errorCode i s = if stateError i s then 3 else if parameterError i s then 1
      else if rangeError i s then 2 else 0 := if_neg (by simp [hlegal])
  rw [h.checked_eq]
  cases hstate : stateError i s with
  | true => exact .failure .stateError (by simp [hcode, hstate, ErrCode.code])
  | false =>
    cases hparameter : parameterError i s with
    | true => exact .failure .invalidParameter (by simp [hcode, hstate, hparameter, ErrCode.code])
    | false =>
      cases hrange : rangeError i s with
      | true => exact .failure .rangeError (by simp [hcode, hstate, hparameter, hrange, ErrCode.code])
      | false => exact .success r (by simp [hcode, hstate, hparameter, hrange]) heffect

theorem State.objAt_of_ctxAt {s : State} {c : CtxId} {x : Context} (h : s.ctxAt c = some x) : s.objAt c = x.obj := by
  simp [objAt, h]

theorem State.poisonAt_of_ctxAt {s : State} {c : CtxId} {x : Context} (h : s.ctxAt c = some x) :
    s.poisonAt c = x.poison := by
  simp [poisonAt, h]

theorem State.lt_nctx_of_ctxAt {s : State} {c : CtxId} {x : Context} (h : s.ctxAt c = some x) : c.val < s.nctx :=
  (List.getElem?_eq_some_iff.1 h).1

theorem State.nctx_le_of_ctxAt {s : State} {c : CtxId} (h : s.ctxAt c = none) : s.nctx ≤ c.val :=
  List.getElem?_eq_none_iff.1 h

/-- `accept` accepts exactly the listed kinds (rule R107). -/
def Marks (kinds : List Kind) {α : Type} (accept : Obj → Option α) : Prop :=
  ∀ obj : Obj, kinds.contains obj.kind = (accept obj).isSome

/-- A command's row of the kind matrix and of the error tables: it names one context, accepts the kinds `accept` takes
and has no other cause of `IllegalCommand` (rules R107, R387, R388). -/
structure Row (i : Instr) (session : Bool) (c : CtxId) {α : Type} (accept : Obj → Option α) : Prop where
  session : session = isSession i
  target  : c = i.target
  illegal : ∀ s, illegal i s = (decide (c.val ≥ s.nctx) || !((acceptedKinds i).contains (s.objAt c).kind))
  kinds   : Marks (acceptedKinds i) accept

/-- The shape of every command but `CLONE`: level 2 asks for a context of a kind the matrix marks, then come the checks,
then the effect (rules R107, R136, R384). -/
theorem Row.ends {i : Instr} {s : State} {session : Bool} {c : CtxId} {α : Type} {accept : Obj → Option α}
    (row : Row i session c accept) {checks : Bool → α → List Check} {effect : α → State} {result : α → Nat}
    (h : ∀ a, accept (s.objAt c) = some a → Causes i s (checks (s.poisonAt c) a) ∧ Effect i s (effect a)) :
    Ends i s (finishCommand session c s (named c s accept fun poison a =>
      checked (checks poison a) fun _ => .ok (effect a) (result a))) := by
  obtain ⟨rfl, rfl, hillegal, hkinds⟩ := row
  specialize hillegal s
  cases hx : s.ctxAt i.target with
  | none =>
    rw [named_none _ _ hx]
    exact .failure _ (errorCode_of_illegal (by simp [hillegal, State.nctx_le_of_ctxAt hx]))
  | some x =>
    rw [State.objAt_of_ctxAt hx, hkinds x.obj] at hillegal
    cases ha : accept x.obj with
    | none =>
      rw [named_rejected _ _ hx ha]
      exact .failure _ (errorCode_of_illegal (by simp [hillegal, ha]))
    | some a =>
      obtain ⟨hcauses, heffect⟩ := h a (by rwa [State.objAt_of_ctxAt hx])
      rw [named_some _ _ hx ha, ← State.poisonAt_of_ctxAt hx]
      exact hcauses.ends (by simp [hillegal, ha, State.lt_nctx_of_ctxAt hx]) heffect _

end Sys2Proof.Machine
end

section
/-! SUPPORT. The kinds a command accepts are those of the kind matrix (30_encoding.md rule R107), and the operations
that keep an object's kind, configuration and default count (10_state.md rule R30; 45_kdf.md rule R358). -/

namespace Sys2Proof.Machine

/-! ### The kind matrix (rule R107) -/

section
variable {α : Type} {kinds : List Kind} {accept : Obj → Option α}

/-- A row of the matrix, column by column; in most columns the mark holds by computation. -/
theorem marks_of_columns (empty : kinds.contains .empty = (accept .empty).isSome := by rfl)
    (md : ∀ e, kinds.contains .md = (accept (.hash (.md e))).isSome := by intros; rfl)
    (sha3 : ∀ e, e.cfg.isXof = false → kinds.contains .sha3 = (accept (.hash (.sponge e))).isSome := by intros; rfl)
    (xof : ∀ e, e.cfg.isXof = true → kinds.contains .xof = (accept (.hash (.sponge e))).isSome := by intros; rfl)
    (blake2b : ∀ e, kinds.contains .blake2b = (accept (.hash (.blake e))).isSome := by intros; rfl)
    (hmac : ∀ M, kinds.contains .hmac = (accept (.hmac M)).isSome := by intros; rfl)
    (hkdf : ∀ M, kinds.contains .hkdf = (accept (.hkdf M)).isSome := by intros; rfl)
    (pbkdf2 : ∀ M iters, kinds.contains .pbkdf2 = (accept (.pbkdf2 M iters)).isSome := by intros; rfl) :
    Marks kinds accept := by
  intro obj
  cases obj with
  | empty => exact empty
  | hash e =>
    cases e with
    | md e => exact md e
    | sponge e =>
      cases hx : e.cfg.isXof with
      | false => simpa [Obj.kind, hx] using sha3 e hx
      | true => simpa [Obj.kind, hx] using xof e hx
    | blake e => exact blake2b e
  | hmac M => exact hmac M
  | hkdf M => exact hkdf M
  | pbkdf2 M iters => exact pbkdf2 M iters


end

theorem marks_some : Marks [.empty, .md, .sha3, .xof, .blake2b, .hmac, .hkdf, .pbkdf2] some :=
  marks_of_columns

theorem marks_asAny : Marks [.md, .sha3, .xof, .blake2b, .hmac, .hkdf, .pbkdf2] Obj.asAny :=
  marks_of_columns

theorem marks_asHash : Marks [.md, .sha3, .xof, .blake2b] Obj.asHash :=
  marks_of_columns

theorem marks_asStream : Marks [.md, .sha3, .xof, .blake2b, .hmac] Obj.asStream :=
  marks_of_columns

theorem marks_asXof : Marks [.xof] Obj.asXof :=
  marks_of_columns (sha3 := fun _ h => by simp [Obj.asXof, h]) (xof := fun _ h => by simp [Obj.asXof, h])

theorem marks_asHmac : Marks [.hmac] Obj.asHmac :=
  marks_of_columns

theorem marks_asHkdf : Marks [.hkdf] Obj.asHkdf :=
  marks_of_columns

theorem marks_asPbkdf2 : Marks [.pbkdf2] Obj.asPbkdf2 :=
  marks_of_columns

/-- The object a streaming command works on. -/
def Stream.toObj : Stream → Obj
  | .hash e => .hash e
  | .hmac M => .hmac M

theorem Obj.asAny_eq_some {obj a : Obj} (h : obj.asAny = some a) : obj = a := by
  cases obj <;> cases h <;> rfl

theorem Obj.asHash_eq_some {obj : Obj} {e : Engine} (h : obj.asHash = some e) : obj = .hash e := by
  cases obj <;> cases h
  rfl

theorem Obj.asStream_eq_some {obj : Obj} {x : Stream} (h : obj.asStream = some x) : obj = x.toObj := by
  cases obj <;> cases h <;> rfl

theorem Obj.asXof_eq_some {obj : Obj} {e : Sponge} (h : obj.asXof = some e) : obj = .hash (.sponge e) := by
  rcases obj with _ | ⟨_ | e' | _⟩ | _ | _ | _
  case hash.sponge =>
    simp only [asXof, Option.ite_none_right_eq_some, Option.some.injEq] at h
    rw [h.2]
  all_goals cases h

theorem Obj.asHmac_eq_some {obj : Obj} {M : Hmac} (h : obj.asHmac = some M) : obj = .hmac M := by
  cases obj <;> cases h
  rfl

theorem Obj.asHkdf_eq_some {obj : Obj} {M : Hmac} (h : obj.asHkdf = some M) : obj = .hkdf M := by
  cases obj <;> cases h
  rfl

theorem Obj.asPbkdf2_eq_some {obj : Obj} {x : Hmac × Nat} (h : obj.asPbkdf2 = some x) : obj = .pbkdf2 x.1 x.2 := by
  cases obj <;> cases h
  rfl

/-! ### The HMAC controllers keep the configuration (rules R333 to R338, R358) -/

@[simp] theorem Hmac.refresh_cfg (M : Hmac) : M.refresh.cfg = M.cfg := by
  cases h : M.init <;> simp [refresh, cfg, h]

@[simp] theorem hkdfExtract_cfg (salt : Option Bytes) (ikm : Bytes) (M : Hmac) :
    (hkdfExtract salt ikm M).2.cfg = M.cfg :=
  M.compute_cfg _ _

@[simp] theorem hkdfBlocks_cfg (prk info : Bytes) (n i : Nat) (T : Bytes) (M : Hmac) :
    (hkdfBlocks prk info n i T M).2.cfg = M.cfg := by
  induction n generalizing i T M with
  | zero => rfl
  | succ n ih => exact (ih _ _ _).trans (M.compute_cfg _ _)

@[simp] theorem hkdfExpand_cfg (prk info : Bytes) (length : Nat) (M : Hmac) :
    (hkdfExpand prk info length M).2.cfg = M.cfg :=
  hkdfBlocks_cfg ..

@[simp] theorem hkdfDerive_cfg (salt : Option Bytes) (data info : Bytes) (length : Nat) (M : Hmac) :
    (hkdfDerive salt data info length M).2.cfg = M.cfg :=
  (hkdfExpand_cfg ..).trans (hkdfExtract_cfg ..)

theorem Hmac.absorb_finish_cfg (M : Hmac) (m : Bytes) : (M.absorb m).finish.2.cfg = M.cfg := by simp

@[simp] theorem pbkdf2Iterate_cfg (j : Nat) (U F : Bytes) (M : Hmac) : (pbkdf2Iterate j U F M).2.cfg = M.cfg := by
  induction j generalizing U F M with
  | zero => rfl
  | succ j ih => exact (ih _ _ _).trans (M.absorb_finish_cfg U)

@[simp] theorem pbkdf2Block_cfg (salt : Bytes) (c i : Nat) (M : Hmac) : (pbkdf2Block salt c i M).2.cfg = M.cfg :=
  (pbkdf2Iterate_cfg ..).trans (M.absorb_finish_cfg _)

@[simp] theorem pbkdf2Blocks_cfg (salt : Bytes) (c n i : Nat) (M : Hmac) :
    (pbkdf2Blocks salt c n i M).2.cfg = M.cfg := by
  induction n generalizing i M with
  | zero => rfl
  | succ n ih => exact (ih _ _).trans (pbkdf2Block_cfg ..)

@[simp] theorem pbkdf2Derive_cfg (P salt : Bytes) (c L : Nat) (M : Hmac) : (pbkdf2Derive P salt c L M).2.cfg = M.cfg :=
  (pbkdf2Blocks_cfg ..).trans (M.initialize_cfg P)

/-! ### The fixed part of an object (rule R30) -/

/-- The kind of a hash object is that of its configuration. -/
theorem Obj.kind_fresh (e : Engine) : (Obj.hash (Engine.fresh e.cfg)).kind = (Obj.hash e).kind := by
  cases e with
  | md e => rfl
  | sponge e => simp [Engine.cfg, Engine.fresh, kind]
  | blake e => rfl

theorem Obj.fixedPart_hash {e e' : Engine} (h : e'.cfg = e.cfg) :
    (Obj.hash e').fixedPart = (Obj.hash e).fixedPart := by
  rw [fixedPart, fixedPart, ← kind_fresh e', ← kind_fresh e, h]

theorem Obj.fixedPart_hmac {M M' : Hmac} (h : M'.cfg = M.cfg) : (Obj.hmac M').fixedPart = (Obj.hmac M).fixedPart :=
  congrArg (fun cfg => some (Kind.hmac, cfg, 0)) h

theorem Obj.fixedPart_hkdf {M M' : Hmac} (h : M'.cfg = M.cfg) : (Obj.hkdf M').fixedPart = (Obj.hkdf M).fixedPart :=
  congrArg (fun cfg => some (Kind.hkdf, cfg, 0)) h

theorem Obj.fixedPart_pbkdf2 {M M' : Hmac} (iters : Nat) (h : M'.cfg = M.cfg) :
    (Obj.pbkdf2 M' iters).fixedPart = (Obj.pbkdf2 M iters).fixedPart :=
  congrArg (fun cfg => some (Kind.pbkdf2, cfg, iters)) h

theorem Obj.refresh_fixedPart (obj : Obj) : obj.refresh.fixedPart = obj.fixedPart := by
  cases obj with
  | empty => rfl
  | hash e => exact fixedPart_hash (Engine.fresh_cfg _)
  | hmac M => exact fixedPart_hmac M.refresh_cfg
  | hkdf M => exact fixedPart_hkdf M.refresh_cfg
  | pbkdf2 M iters => exact fixedPart_pbkdf2 iters M.refresh_cfg

theorem Stream.absorb_fixedPart (x : Stream) (s : Bytes) : (x.absorb s).fixedPart = x.toObj.fixedPart := by
  cases x with
  | hash e => exact Obj.fixedPart_hash (e.absorb_cfg s)
  | hmac M => exact Obj.fixedPart_hmac (M.absorb_cfg s)

theorem Stream.finish_fixedPart (x : Stream) : x.finish.2.fixedPart = x.toObj.fixedPart := by
  cases x with
  | hash e => exact Obj.fixedPart_hash (by simp)
  | hmac M => exact Obj.fixedPart_hmac M.finish_cfg

end Sys2Proof.Machine
end

section
/-! SUPPORT. Every command ends as the tables say: family by family, its checks are the causes in its rows of the
tables, and its effect is one of `Effect` (60_exceptions.md rules R381 to R388). -/

namespace Sys2Proof.Machine

/-- One cause alone. -/
theorem any_single (b : Bool) : [b].any id = b := Bool.or_false b

/-- The two causes of `range(SRC)` (rule R382). -/
def State.rangeCauses (s : State) : List Bool :=
  [s.srcOutside, decide (s.reg.srcStart.toNat + s.reg.srcLen.toNat > s.reg.srcSize.toNat)]

@[simp] theorem State.rangeCauses_any (s : State) : s.rangeCauses.any id = s.rangeOutside := by
  simp [rangeCauses, rangeOutside]

theorem clearsPoison_of_isNew {i : Instr} (h : isNew i = true) : clearsPoison i = true := by
  unfold clearsPoison
  split <;> simp [h]

section
variable {i : Instr} {s : State} {c : CtxId}

/-! ### Management and construction -/

theorem Causes.none (hstate : false = stateError i s) (hparameter : false = parameterError i s)
    (hrange : false = rangeError i s) : Causes i s [] :=
  .intro [] [] [] hstate hparameter hrange

/-- A command that reads a context and has no cause but those of its kind. -/
theorem reading_ends {α : Type} {accept : Obj → Option α} (row : Row i false c accept)
    (hstate : false = stateError i s) (hparameter : false = parameterError i s) (hrange : false = rangeError i s)
    (r : α → Nat) : Ends i s (finishCommand false c s (named c s accept fun _ a => .ok s (r a))) :=
  row.ends (checks := fun _ _ => []) (effect := fun _ => s) fun _ _ =>
    ⟨.none hstate hparameter hrange, .reading s.mem⟩

/-- `RESET` and `DISPOSE`: the target holds another object and is not poisoned (rules R140, R142). -/
theorem replacing_ends {f : Obj → Obj} (row : Row i false c Obj.asAny) (hclass : clearsPoison i = true)
    (hstate : false = stateError i s) (hparameter : false = parameterError i s) (hrange : false = rangeError i s)
    (hfixed : Reconfigures i ∨ ∀ obj, (f obj).fixedPart = obj.fixedPart) :
    Ends i s (finishCommand false c s (named c s Obj.asAny fun _ obj => .ok (s.setObj c (f obj)) 0)) := by
  obtain rfl := row.target
  refine row.ends (checks := fun _ _ => []) (effect := fun obj => s.setObj i.target (f obj)) (result := fun _ => 0)
    fun obj ha => ⟨.none hstate hparameter hrange, .writing _ (by simp [hclass]) ?_⟩
  exact hfixed.imp_right fun hf => (hf obj).trans (congrArg _ (Obj.asAny_eq_some ha).symm)

theorem construct_ends (row : Row i false c some) (hnew : isNew i = true) {checks : List Check}
    (hcauses : Causes i s checks) (obj : Unit → Obj) : Ends i s (construct c s checks obj) := by
  obtain rfl := row.target
  exact row.ends fun _ _ => ⟨hcauses, .writing _ (by simp [clearsPoison_of_isNew hnew]) (.inl (.inl hnew))⟩

theorem wrap_ends {α : Type} {accept : Obj → Option α} (row : Row i false c accept) (hwrap : isWrap i = true)
    (hstate : s.poisonAt c = stateError i s) (hparameter : false = parameterError i s) (hrange : false = rangeError i s)
    (obj : α → Obj) : Ends i s (wrap c s accept obj) := by
  obtain rfl := row.target
  exact row.ends fun _ _ => ⟨.intro [_] [] [] ((any_single _).trans hstate) hparameter hrange,
    .writing _ (by simp [hwrap]) (.inl (.inr (.inl hwrap)))⟩

/-! ### Session commands -/

/-- The checks of a command with an output of `n` bytes at offset `o`, which come last (rules R382, R384). -/
theorem causes_of_output {state parameter range : List Bool} {o n : Nat} (hstate : state.any id = stateError i s)
    (hparameter : parameter.any id = parameterError i s)
    (hrange : rangeError i s = (range.any id || s.outputOutside o n)) :
    Causes i s (state.map (·, .stateError) ++
      (parameter.map (·, .invalidParameter) ++ (range.map (·, .rangeError) ++ s.dstChecks o n))) := by
  have h := Causes.intro state parameter
    (range ++ [s.outsideMemory s.reg.dstBase s.reg.dstSize, decide (o + n > s.reg.dstSize.toNat)])
    hstate hparameter (by simp [hrange, State.outputOutside])
  rwa [levels, List.map_append] at h

/-- A session command that leaves in its target an object of the same kind, configuration and default count. -/
theorem Row.effect {α : Type} {accept : Obj → Option α} (row : Row i true c accept) (m : Memory) {obj : Obj}
    (hfixed : obj.fixedPart = (s.objAt c).fixedPart) : Effect i s (State.setObj { s with mem := m } c obj) := by
  obtain ⟨hsession, rfl, -, -⟩ := row
  exact .writing m (by simp [← hsession]) (.inr hfixed)

theorem absorbing_ends (row : Row i true c Obj.asStream)
    (hstate : stateError i s = (s.poisonAt c || (s.objAt c).uninitialised || (s.objAt c).squeezing))
    (hparameter : false = parameterError i s) (range : List Bool) (hrange : range.any id = rangeError i s)
    (input : Unit → Bytes) : Ends i s (absorbing c s (range.map (·, .rangeError)) input) :=
  row.ends fun x hx => by
    have hobj := Obj.asStream_eq_some hx
    rw [hobj] at hstate
    refine ⟨?_, row.effect s.mem (hobj ▸ x.absorb_fixedPart _)⟩
    cases x with
    | hash e =>
      refine .intro [_, e.squeezing] [] range ?_ hparameter hrange
      cases e <;> simp [hstate, Stream.toObj, Obj.uninitialised, Obj.squeezing, Engine.squeezing]
    | hmac M =>
      refine .intro [_, !M.init] [] range ?_ hparameter hrange
      simp [hstate, Stream.toObj, Obj.uninitialised, Obj.squeezing]

theorem finalising_ends (row : Row i true c Obj.asStream) {o : Nat}
    (hstate : stateError i s = (s.poisonAt c || (s.objAt c).uninitialised)) (hparameter : false = parameterError i s)
    (hrange : rangeError i s = s.outputOutside o (s.objAt c).hashLen) : Ends i s (finalising c s o) :=
  row.ends fun x hx => by
    have hobj := Obj.asStream_eq_some hx
    rw [hobj] at hstate hrange
    refine ⟨?_, row.effect _ (hobj ▸ x.finish_fixedPart)⟩
    cases x with
    | hash e =>
      refine causes_of_output (state := [_]) (parameter := []) (range := []) ?_ hparameter hrange
      simp [hstate, Stream.toObj, Obj.uninitialised]
    | hmac M =>
      refine causes_of_output (state := [_, !M.init]) (parameter := []) (range := []) ?_ hparameter hrange
      simp [hstate, Stream.toObj, Obj.uninitialised]

theorem squeezing_ends (row : Row i true c Obj.asXof) {o : Nat} {n : Sponge → Nat} {after : Sponge → Sponge}
    (hafter : ∀ e, (after e).cfg = e.cfg) (hstate : s.poisonAt c = stateError i s)
    (hparameter : false = parameterError i s)
    (hrange : ∀ e, s.objAt c = .hash (.sponge e) → rangeError i s = s.outputOutside o (n e)) :
    Ends i s (squeezing c s o n after) :=
  row.ends fun e he =>
    have hobj := Obj.asXof_eq_some he
    ⟨causes_of_output (state := [_]) (parameter := []) (range := []) ((any_single _).trans hstate) hparameter
        (hrange e hobj),
      row.effect _ (hobj ▸ Obj.fixedPart_hash (congrArg EngineCfg.sponge (hafter e)))⟩

theorem computing_ends (row : Row i true c Obj.asHash) (hstate : s.poisonAt c = stateError i s)
    (hparameter : false = parameterError i s) (range : List Bool)
    (hrange : rangeError i s = (range.any id || s.outputOutside 0 (s.objAt c).hashLen)) (input : Unit → Bytes) :
    Ends i s (computing c s (range.map (·, .rangeError)) input) :=
  row.ends fun e he => by
    rw [Obj.asHash_eq_some he] at hrange
    exact ⟨causes_of_output (state := [_]) (parameter := []) ((any_single _).trans hstate) hparameter hrange,
      .reading _⟩

theorem computingXof_ends (row : Row i true c Obj.asXof) (hstate : s.poisonAt c = stateError i s)
    (hparameter : false = parameterError i s) (range : List Bool)
    (hrange : rangeError i s = (range.any id || s.outputOutside 0 s.dstLen)) (input : Unit → Bytes) :
    Ends i s (computingXof c s (range.map (·, .rangeError)) input) :=
  row.ends fun _ _ =>
    ⟨causes_of_output (state := [_]) (parameter := []) ((any_single _).trans hstate) hparameter hrange, .reading _⟩

end

/-! ### Single commands -/

theorem sha3Bits_isNone (n : Int) : (sha3Bits n).isNone = !([224, 256, 384, 512].contains n) := by
  unfold sha3Bits
  split_ifs <;> simp_all

theorem xofBits_isNone (n : Int) : (xofBits n).isNone = !([128, 256].contains n) := by
  unfold xofBits
  split_ifs <;> simp_all

section
variable (s : State) (c : CtxId)

theorem execNewSha3_ends : Ends (.newSha3 c) s (execNewSha3 c s) :=
  construct_ends (i := .newSha3 c) ⟨rfl, rfl, fun _ => rfl, marks_some⟩ rfl
    (.intro [] [_] [] rfl ((any_single _).trans (sha3Bits_isNone _)) rfl) _

theorem execNewShake_ends : Ends (.newShake c) s (execNewShake c s) :=
  construct_ends (i := .newShake c) ⟨rfl, rfl, fun _ => rfl, marks_some⟩ rfl
    (.intro [] [_] [] rfl ((any_single _).trans (xofBits_isNone _)) rfl) _

theorem execNewCshake_ends (namep auxp : Bool) : Ends (.newCshake c namep auxp) s (execNewCshake c namep auxp s) :=
  construct_ends (i := .newCshake c namep auxp) ⟨rfl, rfl, fun _ => rfl, marks_some⟩ rfl
    (.intro [] [_] [namep && s.outsideMemory s.reg.nameBase s.reg.nameSize,
        auxp && s.outsideMemory s.reg.auxBase s.reg.auxSize]
      rfl ((any_single _).trans (xofBits_isNone _)) (by simp [rangeError, inputOutside, outputOf])) _

theorem execNewBlake2b_ends (keyp saltp auxp : Bool) :
    Ends (.newBlake2b c keyp saltp auxp) s (execNewBlake2b c keyp saltp auxp s) :=
  construct_ends (i := .newBlake2b c keyp saltp auxp) ⟨rfl, rfl, fun _ => rfl, marks_some⟩ rfl
    (.intro [] [decide (s.reg.param0.toInt < 1 ∨ s.reg.param0.toInt > 64), keyp && decide (s.reg.keySize.toNat > 64),
        saltp && decide (s.reg.saltSize.toNat ≠ 16), auxp && decide (s.reg.auxSize.toNat ≠ 16)]
      [keyp && s.outsideMemory s.reg.keyBase s.reg.keySize, saltp && s.outsideMemory s.reg.saltBase s.reg.saltSize,
        auxp && s.outsideMemory s.reg.auxBase s.reg.auxSize]
      rfl (by simp [parameterError, Bool.or_assoc]) (by simp [rangeError, inputOutside, outputOf, Bool.or_assoc])) _

theorem execMinit_ends : Ends (.minit c) s (execMinit c s) := by
  have row : Row (.minit c) true c Obj.asHmac := ⟨rfl, rfl, fun _ => rfl, marks_asHmac⟩
  refine row.ends fun M hM => ⟨.intro [_] [] [s.outsideMemory s.reg.keyBase s.reg.keySize] (any_single _) rfl ?_,
    row.effect s.mem (Obj.asHmac_eq_some hM ▸ Obj.fixedPart_hmac (M.initialize_cfg _))⟩
  simp [rangeError, inputOutside, outputOf]

theorem execMch_ends : Ends (.mch c) s (execMch c s) := by
  have row : Row (.mch c) true c Obj.asHmac := ⟨rfl, rfl, fun _ => rfl, marks_asHmac⟩
  refine row.ends fun M hM => ?_
  have hobj := Obj.asHmac_eq_some hM
  refine ⟨causes_of_output (state := [_]) (parameter := [])
    (range := [s.outsideMemory s.reg.keyBase s.reg.keySize, s.srcOutside]) (any_single _) rfl ?_,
    row.effect _ (hobj ▸ Obj.fixedPart_hmac (M.compute_cfg _ _))⟩
  simp [rangeError, inputOutside, outputOf, hobj, Obj.hashLen]

theorem execHkdfExtract_ends (saltp : Bool) : Ends (.hkdfExtract c saltp) s (execHkdfExtract c saltp s) := by
  have row : Row (.hkdfExtract c saltp) true c Obj.asHkdf := ⟨rfl, rfl, fun _ => rfl, marks_asHkdf⟩
  refine row.ends fun M hM => ?_
  have hobj := Obj.asHkdf_eq_some hM
  refine ⟨causes_of_output (state := [_]) (parameter := [])
    (range := [saltp && s.outsideMemory s.reg.saltBase s.reg.saltSize, s.srcOutside]) (any_single _) rfl ?_,
    row.effect _ (hobj ▸ Obj.fixedPart_hkdf (hkdfExtract_cfg ..))⟩
  simp [rangeError, inputOutside, outputOf, hobj, Obj.hashLen]

theorem execHkdfExpand_ends (auxp : Bool) : Ends (.hkdfExpand c auxp) s (execHkdfExpand c auxp s) := by
  have row : Row (.hkdfExpand c auxp) true c Obj.asHkdf := ⟨rfl, rfl, fun _ => rfl, marks_asHkdf⟩
  refine row.ends fun M hM => ?_
  have hobj := Obj.asHkdf_eq_some hM
  refine ⟨causes_of_output (state := [_])
    (parameter := [decide (s.reg.keySize.toNat < M.hashLen), decide (s.reg.param0.toInt < 0),
      decide (s.reg.param0.toInt > (Config.hkdfMaxBlocks * M.hashLen : Nat))])
    (range := [s.outsideMemory s.reg.keyBase s.reg.keySize, auxp && s.outsideMemory s.reg.auxBase s.reg.auxSize])
    (any_single _) ?_ ?_, row.effect _ (hobj ▸ Obj.fixedPart_hkdf (hkdfExpand_cfg ..))⟩
  · simp [parameterError, hobj, Obj.hashLen, Config.hkdfMaxBlocks, Bool.or_assoc]
  · simp [rangeError, inputOutside, outputOf, State.reqLen, State.param0]

theorem execHkdfDerive_ends (saltp auxp : Bool) :
    Ends (.hkdfDerive c saltp auxp) s (execHkdfDerive c saltp auxp s) := by
  have row : Row (.hkdfDerive c saltp auxp) true c Obj.asHkdf := ⟨rfl, rfl, fun _ => rfl, marks_asHkdf⟩
  refine row.ends fun M hM => ?_
  have hobj := Obj.asHkdf_eq_some hM
  refine ⟨causes_of_output (state := [_])
    (parameter := [decide (s.reg.param0.toInt < 0),
      decide (s.reg.param0.toInt > (Config.hkdfMaxBlocks * M.hashLen : Nat))])
    (range := [saltp && s.outsideMemory s.reg.saltBase s.reg.saltSize,
      auxp && s.outsideMemory s.reg.auxBase s.reg.auxSize, s.srcOutside])
    (any_single _) ?_ ?_, row.effect _ (hobj ▸ Obj.fixedPart_hkdf (hkdfDerive_cfg ..))⟩
  · simp [parameterError, hobj, Obj.hashLen, Config.hkdfMaxBlocks]
  · simp [rangeError, inputOutside, outputOf, State.reqLen, State.param0, Bool.or_assoc]

theorem execPbkdf2Derive_ends (iterp : Bool) : Ends (.pbkdf2Derive c iterp) s (execPbkdf2Derive c iterp s) := by
  have row : Row (.pbkdf2Derive c iterp) true c Obj.asPbkdf2 := ⟨rfl, rfl, fun _ => rfl, marks_asPbkdf2⟩
  refine row.ends fun x hx => ?_
  have hobj := Obj.asPbkdf2_eq_some hx
  refine ⟨causes_of_output (state := [_]) (parameter := [decide (s.reg.param0.toInt < 0)])
    (range := [s.srcOutside, s.outsideMemory s.reg.saltBase s.reg.saltSize]) (any_single _) (any_single _) ?_,
    row.effect _ (hobj ▸ Obj.fixedPart_pbkdf2 x.2 (pbkdf2Derive_cfg ..))⟩
  simp [rangeError, inputOutside, outputOf, State.reqLen, State.param0]

/-- `CLONE` names two contexts; every cause of its illegality reports the same code, so their order does not show
(rules R141, R388). -/
theorem execClone_ends (d src : CtxId) : Ends (.clone d src) s (execClone d src s) := by
  have hillegal : illegal (.clone d src) s = true → Ends (.clone d src) s
      (.next (takeError false d .illegalCommand s)) := fun h => .failure _ (errorCode_of_illegal h)
  unfold execClone
  cases hd : s.ctxAt d with
  | none =>
    rw [named_none _ _ hd]
    exact hillegal (by simp [illegal, State.nctx_le_of_ctxAt hd])
  | some x =>
    rw [named_some _ _ hd rfl]
    cases hsrc : s.ctxAt src with
    | none =>
      rw [named_none _ _ hsrc]
      exact hillegal (by simp [illegal, State.nctx_le_of_ctxAt hsrc])
    | some y =>
      have hkind : (acceptedKinds (.clone d src)).contains (s.objAt src).kind = y.obj.asAny.isSome := by
        rw [State.objAt_of_ctxAt hsrc]
        exact marks_asAny y.obj
      cases ha : y.obj.asAny with
      | none =>
        rw [named_rejected _ _ hsrc ha]
        exact hillegal (by rw [illegal, hkind, ha]; simp)
      | some obj =>
        rw [named_some _ _ hsrc ha, ← State.poisonAt_of_ctxAt hsrc]
        by_cases heq : d = src
        · rw [if_pos heq]
          exact hillegal (by simp [illegal, heq])
        · rw [if_neg heq]
          have hcauses : Causes (.clone d src) s [poisonCheck (s.poisonAt src)] :=
            .intro [_] [] [] (any_single _) rfl rfl
          refine hcauses.ends ?_ (.writing s.mem rfl (.inl (.inr (.inr (.inl ⟨d, src, rfl⟩))))) 0
          rw [illegal, hkind, ha]
          simp [heq, State.lt_nctx_of_ctxAt hd, State.lt_nctx_of_ctxAt hsrc]

end

/-! ### Every command -/

/-- What a command can do: each family's checks and effect are those of its rows. -/
theorem exec_ends (i : Instr) (s : State) : Ends i s (exec i s) := by
  cases i with
  | reset c =>
    exact replacing_ends (i := .reset c) ⟨rfl, rfl, fun _ => rfl, marks_asAny⟩ rfl rfl rfl rfl
      (.inr Obj.refresh_fixedPart)
  | clone d src => exact execClone_ends s d src
  | dispose c =>
    exact replacing_ends (i := .dispose c) ⟨rfl, rfl, fun _ => rfl, marks_asAny⟩ rfl rfl rfl rfl
      (.inl (.inr (.inr (.inr ⟨c, rfl⟩))))
  | getalg c => exact reading_ends (i := .getalg c) ⟨rfl, rfl, fun _ => rfl, marks_asAny⟩ rfl rfl rfl _
  | gethlen c => exact reading_ends (i := .gethlen c) ⟨rfl, rfl, fun _ => rfl, marks_asAny⟩ rfl rfl rfl _
  | getblen c => exact reading_ends (i := .getblen c) ⟨rfl, rfl, fun _ => rfl, marks_asAny⟩ rfl rfl rfl _
  | gethf c => exact reading_ends (i := .gethf c) ⟨rfl, rfl, fun _ => rfl, marks_asHmac⟩ rfl rfl rfl _
  | newSha1 c =>
    exact construct_ends (i := .newSha1 c) ⟨rfl, rfl, fun _ => rfl, marks_some⟩ rfl (.none rfl rfl rfl) fun _ => _
  | newSha256 c =>
    exact construct_ends (i := .newSha256 c) ⟨rfl, rfl, fun _ => rfl, marks_some⟩ rfl (.none rfl rfl rfl) fun _ => _
  | newSha512 c =>
    exact construct_ends (i := .newSha512 c) ⟨rfl, rfl, fun _ => rfl, marks_some⟩ rfl (.none rfl rfl rfl) fun _ => _
  | newSha3 c => exact execNewSha3_ends s c
  | newShake c => exact execNewShake_ends s c
  | newCshake c namep auxp => exact execNewCshake_ends s c namep auxp
  | newBlake2b c keyp saltp auxp => exact execNewBlake2b_ends s c keyp saltp auxp
  | wrapHmac c => exact wrap_ends (i := .wrapHmac c) ⟨rfl, rfl, fun _ => rfl, marks_asHash⟩ rfl rfl rfl rfl _
  | wrapHkdf c => exact wrap_ends (i := .wrapHkdf c) ⟨rfl, rfl, fun _ => rfl, marks_asHmac⟩ rfl rfl rfl rfl _
  | wrapPbkdf2 c iterp =>
    exact wrap_ends (i := .wrapPbkdf2 c iterp) ⟨rfl, rfl, fun _ => rfl, marks_asHmac⟩ rfl rfl rfl rfl _
  | newPbkdf2 c iterp =>
    exact construct_ends (i := .newPbkdf2 c iterp) ⟨rfl, rfl, fun _ => rfl, marks_some⟩ rfl (.none rfl rfl rfl)
      fun _ => _
  | updb c b =>
    exact absorbing_ends (i := .updb c b) ⟨rfl, rfl, fun _ => rfl, marks_asStream⟩ rfl rfl [] rfl fun _ => [b]
  | upd c =>
    exact absorbing_ends (i := .upd c) ⟨rfl, rfl, fun _ => rfl, marks_asStream⟩ rfl rfl [s.srcOutside]
      (by simp [rangeError, inputOutside, outputOf]) fun _ => s.whole s.src
  | updr c =>
    exact absorbing_ends (i := .updr c) ⟨rfl, rfl, fun _ => rfl, marks_asStream⟩ rfl rfl s.rangeCauses
      (by simp [rangeError, inputOutside, outputOf]) fun _ => s.srcRange
  | fin c => exact finalising_ends (i := .fin c) ⟨rfl, rfl, fun _ => rfl, marks_asStream⟩ rfl rfl rfl
  | fino c => exact finalising_ends (i := .fino c) ⟨rfl, rfl, fun _ => rfl, marks_asStream⟩ rfl rfl rfl
  | finol c =>
    exact squeezing_ends (i := .finol c) ⟨rfl, rfl, fun _ => rfl, marks_asXof⟩ (fun e => Sponge.fresh_cfg e.cfg)
      rfl rfl fun _ _ => rfl
  | out c =>
    exact squeezing_ends (i := .out c) ⟨rfl, rfl, fun _ => rfl, marks_asXof⟩ (fun e => e.squeeze_cfg _)
      rfl rfl fun _ he => congrArg (fun obj : Obj => s.outputOutside s.dstStart obj.hashLen) he
  | outl c =>
    exact squeezing_ends (i := .outl c) ⟨rfl, rfl, fun _ => rfl, marks_asXof⟩ (fun e => e.squeeze_cfg _)
      rfl rfl fun _ _ => rfl
  | ch c =>
    exact computing_ends (i := .ch c) (c := c) ⟨rfl, rfl, fun _ => rfl, marks_asHash⟩ rfl rfl [s.srcOutside]
      (by simp [rangeError, inputOutside, outputOf]) fun _ => s.whole s.src
  | chr c =>
    exact computing_ends (i := .chr c) (c := c) ⟨rfl, rfl, fun _ => rfl, marks_asHash⟩ rfl rfl s.rangeCauses
      (by simp [rangeError, inputOutside, outputOf]) fun _ => s.srcRange
  | chl c =>
    exact computingXof_ends (i := .chl c) ⟨rfl, rfl, fun _ => rfl, marks_asXof⟩ rfl rfl [s.srcOutside]
      (by simp [rangeError, inputOutside, outputOf, State.dstLen]) fun _ => s.whole s.src
  | chrl c =>
    exact computingXof_ends (i := .chrl c) ⟨rfl, rfl, fun _ => rfl, marks_asXof⟩ rfl rfl s.rangeCauses
      (by simp [rangeError, inputOutside, outputOf, State.dstLen]) fun _ => s.srcRange
  | minit c => exact execMinit_ends s c
  | mch c => exact execMch_ends s c
  | hkdfExtract c saltp => exact execHkdfExtract_ends s c saltp
  | hkdfExpand c auxp => exact execHkdfExpand_ends s c auxp
  | hkdfDerive c saltp auxp => exact execHkdfDerive_ends s c saltp auxp
  | pbkdf2Derive c iterp => exact execPbkdf2Derive_ends s c iterp

end Sys2Proof.Machine
end

section
/-! SUPPORT. What a command leaves unchanged, read off from `exec_ends`: registers, contexts, poison and configurations
(10_state.md rules R24 to R31; 60_exceptions.md rules R385 to R387). -/

namespace Sys2Proof.Machine

section
variable {i : Instr} {s t : State}

/-! ### The registers -/

theorem Effect.reg_eq (h : Effect i s t) : t.reg = s.reg := by
  cases h <;> rfl

theorem Effect.rest_eq (h : Effect i s t) :
    t.memsz = s.memsz ∧ t.pending = s.pending ∧ t.ctx.length = s.ctx.length := by
  cases h <;> simp

theorem exec_reported (h : exec i s = .next t) : Reported s.reg t.reg := by
  have hends := exec_ends i s
  rw [h] at hends
  cases hends with
  | success r _ heffect => exact heffect.reg_eq ▸ reportSuccess_reported r _
  | failure e _ => exact takeError_reported _ _ e s

/-- No command changes `NCTX`, `MEM_BYTES` or the host's queue (rules R27, R386). -/
theorem exec_rest_eq (h : exec i s = .next t) :
    t.memsz = s.memsz ∧ t.pending = s.pending ∧ t.ctx.length = s.ctx.length := by
  have hends := exec_ends i s
  rw [h] at hends
  cases hends with
  | success r _ heffect => exact heffect.rest_eq
  | failure e _ =>
    refine ⟨takeError_memsz .., takeError_pending .., ?_⟩
    rw [takeError_ctx]
    split <;> simp

/-! ### The context file -/

/-- What a command can do to the context file: nothing, another object in the target, or the target poisoned. -/
inductive CtxChange (i : Instr) (s t : State) : Prop
  | kept (hctx : t.ctx = s.ctx)
  | written {obj : Obj} (hctx : t.ctx = s.ctx.set i.target.val { obj := obj, poison := false })
      (hcode : errorCode i s = 0) (hclass : (clearsPoison i || isSession i || isWrap i) = true)
      (hfixed : Reconfigures i ∨ obj.fixedPart = (s.objAt i.target).fixedPart)
  | poisoned (hctx : t.ctx = (s.poisoned i.target).ctx) (hsession : isSession i = true)
      (hcode : errorCode i s ∈ [1, 2, 3])

/-- The failures that poison (rule R387). -/
theorem code_of_poisons {session : Bool} {e : ErrCode} (h : poisons session e = true) :
    session = true ∧ e.code ∈ [1, 2, 3] := by
  cases e with
  | illegalCommand => cases h
  | invalidParameter | rangeError | stateError => exact ⟨h, by decide⟩

theorem exec_ctxChange (h : exec i s = .next t) : CtxChange i s t := by
  have hends := exec_ends i s
  rw [h] at hends
  cases hends with
  | success r hcode heffect =>
    cases heffect with
    | reading m => exact .kept rfl
    | writing m hclass hfixed => exact .written rfl hcode hclass hfixed
  | failure e hcode =>
    cases hpoisons : poisons (isSession i) e with
    | false => exact .kept (by simp [hpoisons])
    | true =>
      obtain ⟨hsession, he⟩ := code_of_poisons hpoisons
      exact .poisoned (by simp [hpoisons]) hsession (hcode ▸ he)

section
variable (h : CtxChange i s t)
include h

theorem CtxChange.getElem?_of_ne {j : Nat} (hj : j ≠ i.target.val) : t.ctx[j]? = s.ctx[j]? := by
  cases h with
  | kept hctx => rw [hctx]
  | written hctx => rw [hctx, List.getElem?_set_ne hj.symm]
  | poisoned hctx => rw [hctx, poisoned_ctx, List.getElem?_modify_ne _ _ hj.symm]

/-- A command that gives no context another object keeps the fixed part of each (rules R30, R162). -/
theorem CtxChange.fixedPart_eq (hi : ¬Reconfigures i) (j : Nat) :
    (t.ctx[j]?).map (fun x => x.obj.fixedPart) = (s.ctx[j]?).map fun x => x.obj.fixedPart := by
  by_cases hj : j = i.target.val
  case neg => rw [h.getElem?_of_ne hj]
  subst hj
  cases h with
  | kept hctx => rw [hctx]
  | written hctx _ _ hfixed =>
    rw [hctx, List.getElem?_set_self']
    cases hx : s.ctx[i.target.val]? with
    | none => rfl
    | some x => exact congrArg some ((hfixed.resolve_left hi).trans (congrArg _ (State.objAt_of_ctxAt hx)))
  | poisoned hctx =>
    rw [hctx, poisoned_ctx, List.getElem?_modify]
    cases s.ctx[i.target.val]? <;> simp

theorem CtxChange.poisonAt_of_ne {c : CtxId} (hc : c ≠ i.target) : t.poisonAt c = s.poisonAt c := by
  unfold State.poisonAt State.ctxAt
  rw [h.getElem?_of_ne fun heq => hc (Fin.ext heq)]

end

theorem poisonAt_congr (hctx : t.ctx = s.ctx) (c : CtxId) : t.poisonAt c = s.poisonAt c := by
  simp [State.poisonAt, State.ctxAt, hctx]

theorem poisonAt_of_set {c : CtxId} {obj : Obj} (hctx : t.ctx = s.ctx.set c.val { obj := obj, poison := false }) :
    t.poisonAt c = false := by
  unfold State.poisonAt State.ctxAt
  rw [hctx, List.getElem?_set_self']
  cases s.ctx[c.val]? <;> rfl

theorem poisonAt_of_poisoned {c : CtxId} (hctx : t.ctx = (s.poisoned c).ctx) (hs : s.poisonAt c = true) :
    t.poisonAt c = true := by
  unfold State.poisonAt State.ctxAt at hs ⊢
  rw [hctx, poisoned_ctx, List.getElem?_modify_eq]
  cases hx : s.ctx[c.val]? with
  | none => simp [hx] at hs
  | some x => rfl

/-- Poison is a cause of `StateError` for every session and wrap command (rules R383, R387). -/
theorem stateError_of_poisonAt (hclass : (isSession i || isWrap i) = true) (hpoison : s.poisonAt i.target = true) :
    stateError i s = true := by
  unfold stateError
  split
  case h_1 => cases hclass
  case h_7 => simp [hclass, hpoison]
  all_goals
    simp only [Instr.target] at hpoison
    simp [hpoison]

theorem poisonAt_of_success (hclass : (isSession i || isWrap i) = true) (hcode : errorCode i s = 0) :
    s.poisonAt i.target = false := by
  by_contra hpoison
  have hstate := stateError_of_poisonAt hclass (Bool.eq_true_of_not_eq_false hpoison)
  unfold errorCode at hcode
  split_ifs at hcode

section
variable {c : CtxId} (h : CtxChange i s t)
include h

/-- Only the commands that give the target another object clear its poison bit. -/
theorem CtxChange.of_poison_cleared (hs : s.poisonAt c = true) (ht : t.poisonAt c = false) :
    clearsPoison i = true ∧ i.target = c := by
  by_cases hc : c = i.target
  case neg => simp [h.poisonAt_of_ne hc, hs] at ht
  subst hc
  refine ⟨?_, rfl⟩
  cases h with
  | kept hctx => simp [poisonAt_congr hctx, hs] at ht
  | written _ hcode hclass _ =>
    by_contra hclear
    simp [poisonAt_of_success (by simpa [hclear] using hclass) hcode] at hs
  | poisoned hctx => simp [poisonAt_of_poisoned hctx hs] at ht

/-- Only a session command's failure sets the poison bit of its target. -/
theorem CtxChange.of_poison_set (hs : s.poisonAt c = false) (ht : t.poisonAt c = true) :
    isSession i = true ∧ i.target = c ∧ errorCode i s ∈ [1, 2, 3] := by
  by_cases hc : c = i.target
  case neg => simp [h.poisonAt_of_ne hc, hs] at ht
  subst hc
  cases h with
  | kept hctx => simp [poisonAt_congr hctx, hs] at ht
  | written hctx => simp [poisonAt_of_set hctx] at ht
  | poisoned _ hsession hcode => exact ⟨hsession, rfl, hcode⟩

end

end

end Sys2Proof.Machine
end

section
open Sys2Proof Sys2Proof.Machine

/-- Settles O15: the code in `ERR` is that of one of the two reports. -/
theorem reportingRegisters : Obligations.ReportingRegisters := by
  unfold Obligations.ReportingRegisters
  intro i s t h
  have hreport := exec_reported h
  obtain ⟨herr, hstatus, hlog, hresult⟩ := hreport.byCode
  exact ⟨herr, hstatus, hlog, hresult, by rw [hreport.frame]⟩

/-- Settles O20: the report's frame and that of the effect. -/
theorem registerFrame : Obligations.RegisterFrame := by
  unfold Obligations.RegisterFrame
  intro i s t h
  exact ⟨(exec_reported h).frame, exec_rest_eq h⟩

/-- Settles O22: every change of the context file is one of the target. -/
theorem contextFrame : Obligations.ContextFrame := by
  unfold Obligations.ContextFrame
  intro i s t h j hj
  exact (exec_ctxChange h).getElem?_of_ne hj

/-- Settles O24: the object a command leaves in place has the fixed part of the one it found. -/
theorem configurationIsFixed : Obligations.ConfigurationIsFixed := by
  unfold Obligations.ConfigurationIsFixed
  intro i s t hnew hwrap hclone hdispose h j
  refine (exec_ctxChange h).fixedPart_eq ?_ j
  rintro (hi | hi | ⟨d, src, hi⟩ | ⟨c, hi⟩)
  · simp [hnew] at hi
  · simp [hwrap] at hi
  · exact hclone d src hi
  · exact hdispose c hi

/-- Settles O18: a success leaves its target without poison, and only a session command's failure sets it. -/
theorem poisonChangesOnlySo : Obligations.PoisonChangesOnlySo := by
  unfold Obligations.PoisonChangesOnlySo
  intro i s t c h
  have hchange := exec_ctxChange h
  exact ⟨hchange.of_poison_cleared, hchange.of_poison_set⟩

end

section
/-! SUPPORT. Noninterference: a command does the same whatever stands in a context it does not name (10_state.md rule
R30). -/

namespace Sys2Proof.Machine

/-- The state with another context in place `j`. -/
def State.replaced (s : State) (j : Nat) (x : Context) : State := { s with ctx := s.ctx.set j x }

/-- The same verdict with another context in place `j` of the state it leaves. -/
def Verdict.replaced (j : Nat) (x : Context) : Verdict → Verdict
  | .ok s r => .ok (s.replaced j x) r
  | .err e => .err e

/-- The same outcome with another context in place `j` of the state it leaves. -/
def outcomeReplaced (j : Nat) (x : Context) : Host.Outcome State Fault Refusal → Host.Outcome State Fault Refusal
  | .next s => .next (s.replaced j x)
  | .fault f => .fault f
  | .refused r => .refused r

section
variable {s : State} {j : Nat} {x : Context} {c : CtxId}

theorem ctxAt_replaced (hc : j ≠ c.val) : (s.replaced j x).ctxAt c = s.ctxAt c :=
  List.getElem?_set_ne hc

theorem setCtx_replaced (hc : j ≠ c.val) (y : Context) :
    (s.replaced j x).setCtx c y = (s.setCtx c y).replaced j x :=
  congrArg (fun ctx => { s with ctx := ctx }) (List.set_comm x y hc)

theorem takeError_replaced (hc : j ≠ c.val) (session : Bool) (e : ErrCode) :
    takeError session c e (s.replaced j x) = (takeError session c e s).replaced j x := by
  unfold takeError poisonCtx
  rw [ctxAt_replaced hc]
  split
  · cases s.ctxAt c with
    | none => rfl
    | some y => exact congrArg (reportFailure e) (setCtx_replaced hc _)
  · rfl

theorem checked_replaced (cs : List Check) {k k' : Unit → Verdict} (hk : k' () = (k ()).replaced j x) :
    checked cs k' = (checked cs k).replaced j x := by
  induction cs with
  | nil => exact hk
  | cons t cs ih =>
    obtain ⟨failed, e⟩ := t
    cases failed with
    | true => rfl
    | false => exact ih

theorem named_replaced (hc : j ≠ c.val) {α : Type} {accept : Obj → Option α} {k k' : Bool → α → Verdict}
    (hk : ∀ poison a, k' poison a = (k poison a).replaced j x) :
    named c (s.replaced j x) accept k' = (named c s accept k).replaced j x := by
  unfold named
  rw [ctxAt_replaced hc]
  cases s.ctxAt c with
  | none => rfl
  | some y =>
    cases ha : accept y.obj with
    | none => simp [ha, Verdict.replaced]
    | some a => simp [ha, hk]

theorem finishCommand_replaced (hc : j ≠ c.val) (session : Bool) {v v' : Verdict} (hv : v' = v.replaced j x) :
    finishCommand session c (s.replaced j x) v' = outcomeReplaced j x (finishCommand session c s v) := by
  subst hv
  cases v with
  | ok s' r => rfl
  | err e => exact congrArg _ (takeError_replaced hc session e)

/-- The shape of a command that leaves an object in the context it names. -/
theorem writing_replaced (hc : j ≠ c.val) (session : Bool) {α : Type} {accept : Obj → Option α}
    (checks : Bool → α → List Check) (m : α → Memory) (obj : α → Obj) (r : α → Nat) :
    finishCommand session c (s.replaced j x) (named c (s.replaced j x) accept fun poison a =>
        checked (checks poison a) fun _ => .ok (State.setObj { s.replaced j x with mem := m a } c (obj a)) (r a)) =
      outcomeReplaced j x (finishCommand session c s (named c s accept fun poison a =>
        checked (checks poison a) fun _ => .ok (State.setObj { s with mem := m a } c (obj a)) (r a))) :=
  finishCommand_replaced hc session <| named_replaced hc fun _ a => checked_replaced _ <|
    congrArg (Verdict.ok · _) (setCtx_replaced (s := { s with mem := m a }) hc _)

/-- The shape of a command that leaves the context it names as it was. -/
theorem reading_replaced (hc : j ≠ c.val) (session : Bool) {α : Type} {accept : Obj → Option α}
    (checks : Bool → α → List Check) (m : α → Memory) (r : α → Nat) :
    finishCommand session c (s.replaced j x) (named c (s.replaced j x) accept fun poison a =>
        checked (checks poison a) fun _ => .ok { s.replaced j x with mem := m a } (r a)) =
      outcomeReplaced j x (finishCommand session c s (named c s accept fun poison a =>
        checked (checks poison a) fun _ => .ok { s with mem := m a } (r a))) :=
  finishCommand_replaced hc session <| named_replaced hc fun _ _ => checked_replaced _ rfl

theorem execClone_replaced {d src : CtxId} (hd : j ≠ d.val) (hsrc : j ≠ src.val) :
    execClone d src (s.replaced j x) = outcomeReplaced j x (execClone d src s) :=
  finishCommand_replaced hd false <| named_replaced hd fun _ _ => named_replaced hsrc fun _ _ => by
    split
    · rfl
    · exact checked_replaced _ (congrArg (Verdict.ok · _) (setCtx_replaced hd _))

end

theorem exec_replaced {i : Instr} (s : State) {j : Nat} (x : Context) (hj : j ≠ i.target.val)
    (hsrc : ∀ d src, i = .clone d src → j ≠ src.val) :
    exec i (s.replaced j x) = outcomeReplaced j x (exec i s) := by
  cases i with
  | reset c | dispose c => exact writing_replaced hj false (fun _ _ => []) (fun _ => s.mem) _ _
  | clone d src => exact execClone_replaced hj (hsrc d src rfl)
  | getalg c | gethlen c | getblen c | gethf c => exact reading_replaced hj false (fun _ _ => []) (fun _ => s.mem) _
  | newSha1 c | newSha256 c | newSha512 c | newSha3 c | newShake c | newCshake c namep auxp
  | newBlake2b c keyp saltp auxp | newPbkdf2 c iterp | wrapHmac c | wrapHkdf c | wrapPbkdf2 c iterp =>
    exact writing_replaced hj false _ (fun _ => s.mem) _ _
  | updb c b | upd c | updr c | fin c | fino c | finol c | out c | outl c | minit c | mch c | hkdfExtract c saltp
  | hkdfExpand c auxp | hkdfDerive c saltp auxp | pbkdf2Derive c iterp => exact writing_replaced hj true _ _ _ _
  | ch c | chr c | chl c | chrl c => exact reading_replaced hj true _ _ _

end Sys2Proof.Machine
end

section
open Sys2Proof Sys2Proof.Machine

/-- Settles O23: checks and effects read the registers, operand memory and the named contexts only. -/
theorem contextsDoNotInterfere : Obligations.ContextsDoNotInterfere := by
  unfold Obligations.ContextsDoNotInterfere
  intro i s t j x hj hsrc h
  have hreplaced := exec_replaced s x hj hsrc
  rwa [h] at hreplaced

end

section
/-! SUPPORT. The host's moves: a write to `CMD` runs the decoded command, accesses to the register block, hardware reset
(10_state.md rules R21, R22, R25, R28; 70_reset_and_hazards.md rule R411). -/

namespace Sys2Proof.Machine

/-! ### Steps -/

theorem step_of_pending {s : State} {e : Event} {es : List Event} (h : s.pending = e :: es) :
    step s = perform e { s with pending := es } := by
  simp [step, advance, h]

theorem perform_regWrite_cmd (w : Word) (s : State) : perform (.regWrite 0x00 4 w) s = issue w s := rfl

theorem issue_of_decode {w : Word} {i : Instr} (h : decode w = some i) (s : State) :
    issue w s = exec i (storeCmd w s) := by
  simp [issue, h]

theorem regAccess_next {offset width : Nat} {k : Host.Outcome State Fault Refusal} {t : State}
    (h : regAccess offset width k = .next t) : width = 4 ∧ k = .next t := by
  unfold regAccess at h
  split_ifs at h with hdefined hlt
  exact ⟨hdefined.1, h⟩

theorem memAccess_next {s t : State} {addr width : Nat} {k : Host.Outcome State Fault Refusal}
    (h : memAccess s addr width k = .next t) : k = .next t := by
  unfold memAccess at h
  split_ifs at h
  exact h

/-! ### `ERRLOG` (rule R25) -/

/-- A write to `CMD` reports, whether its word spells a command or not. -/
theorem issue_reported {w : Word} {s t : State} (h : issue w s = .next t) : Reported (storeCmd w s).reg t.reg := by
  unfold issue at h
  split at h
  · cases h
    exact .failure _
  · exact exec_reported h

/-- No event but a write to `CMD` and hardware reset reaches `ERRLOG`. -/
theorem perform_errlog {e : Event} {s t : State} (hcmd : ∀ w, e ≠ .regWrite 0x00 4 w) (hreset : e ≠ .hardReset)
    (h : perform e s = .next t) : t.reg.errlog = s.reg.errlog := by
  cases e with
  | regWrite offset width v =>
    obtain ⟨rfl, hnext⟩ := regAccess_next h
    have hoffset : offset ≠ 0 := fun hzero => hcmd v (by rw [hzero])
    rw [if_neg hoffset] at hnext
    cases hnext
    obtain ⟨-, -, hlog, -⟩ := writeReg_report offset v s
    exact hlog
  | regRead offset width =>
    cases (regAccess_next h).2
    rfl
  | memWrite addr width v =>
    cases memAccess_next h
    rfl
  | memRead addr width =>
    cases memAccess_next h
    rfl
  | hardReset => exact absurd rfl hreset

section
variable {s t : State} (h : step s = .next t)
include h

theorem step_cmdWrite_reported {w : Word} {es : List Event} (hpending : s.pending = .regWrite 0x00 4 w :: es) :
    Reported (storeCmd w s).reg t.reg := by
  rw [step_of_pending hpending, perform_regWrite_cmd] at h
  exact issue_reported (s := { s with pending := es }) h

theorem step_hardReset_errlog {es : List Event} (hpending : s.pending = .hardReset :: es) : t.reg.errlog = 0 := by
  rw [step_of_pending hpending] at h
  cases h
  rfl

theorem step_errlog (hcmd : ∀ w es, s.pending ≠ .regWrite 0x00 4 w :: es)
    (hreset : ∀ es, s.pending ≠ .hardReset :: es) :
    t.reg.errlog = s.reg.errlog := by
  cases hpending : s.pending with
  | nil =>
    simp only [step, advance, hpending] at h
    cases h
    rfl
  | cons e es =>
    rw [step_of_pending hpending] at h
    exact perform_errlog (s := { s with pending := es }) (fun w he => hcmd w es (he ▸ hpending))
      (fun he => hreset es (he ▸ hpending)) h

/-- No step sets a bit that stands for no code. -/
theorem step_unusedBits (hs : s.reg.errlog &&& ~~~0x1E = 0) : t.reg.errlog &&& ~~~0x1E = 0 := by
  by_cases hcmd : ∃ w es, s.pending = .regWrite 0x00 4 w :: es
  case pos =>
    obtain ⟨w, es, hpending⟩ := hcmd
    exact (step_cmdWrite_reported h hpending).unusedBits hs
  by_cases hreset : ∃ es, s.pending = .hardReset :: es
  case pos =>
    obtain ⟨es, hpending⟩ := hreset
    simp [step_hardReset_errlog h hpending]
  simp only [not_exists] at hcmd hreset
  rwa [step_errlog h hcmd hreset]

end

/-! ### The register block -/

theorem readReg_withPending (s : State) (es : List Event) (o : Nat) :
    State.readReg { s with pending := es } o = s.readReg o := rfl

/-- A write to an `RW` register is read back; the last arm of `writeReg` is no such register's. -/
theorem readReg_writeReg_same {offset : Nat} (h : offset ∈ rwOffsets) (v : Word) (s : State) :
    (writeReg offset v s).readReg offset = v := by
  unfold writeReg
  split
  case h_19 => simp_all [rwOffsets]
  all_goals rfl

theorem writeReg_of_not_rw {offset : Nat} (h : offset ∉ rwOffsets) (v : Word) (s : State) :
    writeReg offset v s = s := by
  unfold writeReg
  split
  case h_19 => rfl
  all_goals exact absurd (by decide) h

/-- At each offset, the register read is another than the one written, or the two offsets are equal, contrary to `h`. -/
theorem readReg_writeReg_other {offset o : Nat} (h : o ≠ offset) (v : Word) (s : State) :
    (writeReg offset v s).readReg o = s.readReg o := by
  unfold writeReg
  split
  case h_19 => rfl
  all_goals
    unfold State.readReg
    split
    all_goals trivial

theorem readReg_reserved {o : Nat} (h : 0x68 ≤ o) (s : State) : s.readReg o = 0 := by
  unfold State.readReg
  split
  case h_27 => rfl
  all_goals omega

theorem resetWith_readReg (nctx : Nat) (memsz : Word) (epoch : Nat) (pending : List Event) (o : Nat) :
    (State.resetWith nctx memsz epoch pending).readReg o = if o = 0x1C then 0x4C534337
      else if o = 0x60 then BitVec.ofNat 32 nctx else if o = 0x64 then memsz else 0 := by
  unfold State.readReg
  split <;> simp_all [State.resetWith, Regs.reset, Config.partId, State.nctx]

end Sys2Proof.Machine
end

section
open Sys2Proof Sys2Proof.Machine

/-- Settles O16: a write to `CMD` reports, hardware reset clears, and every other event leaves `ERRLOG` alone. -/
theorem errlogIsSticky : Obligations.ErrlogIsSticky := by
  unfold Obligations.ErrlogIsSticky
  refine ⟨rfl, fun s t h => ⟨fun w es hpending => ?_, fun es hpending => step_hardReset_errlog h hpending,
    step_errlog h, step_unusedBits h⟩⟩
  obtain ⟨herr, -, hlog, -⟩ := (step_cmdWrite_reported h hpending).byCode
  exact ⟨herr, hlog⟩

/-- Settles O5: the decoded command runs on the state with the word stored, and no command writes `CMD`. -/
theorem stepRunsTheDecodedCommand : Obligations.StepRunsTheDecodedCommand := by
  unfold Obligations.StepRunsTheDecodedCommand
  intro s es w i hpending hdecode
  have hstep : step s = exec i (storeCmd w { s with pending := es }) := by
    rw [step_of_pending hpending, perform_regWrite_cmd, issue_of_decode hdecode]
  refine ⟨hstep, fun t ht => ?_⟩
  have hexec := hstep.symm.trans ht
  obtain ⟨-, hqueue, -⟩ := exec_rest_eq hexec
  refine ⟨?_, hqueue⟩
  show t.reg.cmd = w
  rw [(exec_reported hexec).frame, storeCmd_reg_cmd]

/-- Settles O8: a defined access reaches `writeReg`, which stores into the `RW` register of its offset alone. -/
theorem hostRegisterAccess : Obligations.HostRegisterAccess := by
  unfold Obligations.HostRegisterAccess
  refine ⟨?_, ?_, fun s => ⟨rfl, rfl, rfl, ?_⟩⟩
  · intro s es offset v hlt halign hcmd hpending
    obtain ⟨hmemsz, hmem, hctx, hqueue⟩ := writeReg_frame offset v { s with pending := es }
    refine ⟨writeReg offset v { s with pending := es }, ?_, hmem, hctx, hmemsz, hqueue, fun o => ?_⟩
    · rw [step_of_pending hpending, perform, regAccess_of_defined rfl halign hlt, if_neg hcmd]
    · by_cases hrw : offset ∈ rwOffsets
      · by_cases ho : o = offset
        · subst ho
          simp [hrw, readReg_writeReg_same hrw]
        · simp [ho, readReg_writeReg_other ho, readReg_withPending]
      · simp [hrw, writeReg_of_not_rw hrw, readReg_withPending]
  · intro s es offset hlt halign hpending
    rw [step_of_pending hpending, perform, regAccess_of_defined rfl halign hlt]
  · exact fun o hlow _ => readReg_reserved hlow s

/-- Settles O12: hardware reset leaves the reset state with `NCTX` and `MEM_BYTES` as they were, and `State.reset` is one. -/
theorem hardwareReset : Obligations.HardwareReset := by
  unfold Obligations.HardwareReset
  refine ⟨?_, resetWith_readReg _ _ _ _, fun x hx => List.eq_of_mem_replicate hx, fun a => rfl⟩
  intro s es hpending
  refine ⟨hardReset { s with pending := es }, step_of_pending hpending, rfl, rfl, List.length_replicate,
    fun x hx => List.eq_of_mem_replicate hx, resetWith_readReg _ _ _ _, rfl, fun a => rfl⟩

end

section
/-! SUPPORT. The host's accesses to the register block and to operand memory, and the bytes of operand memory a command
can change (20_memory.md rules R70 to R75; 30_encoding.md rule R106). -/

namespace Sys2Proof.Machine

/-! ### Accesses the spec does not define (log entry 4) -/

theorem regAccess_undefined {offset width : Nat} (h : width ≠ 4 ∨ offset % 4 ≠ 0)
    (k : Host.Outcome State Fault Refusal) : regAccess offset width k = .refused .undefinedRegAccess :=
  if_pos (by omega)

theorem regAccess_past {offset : Nat} (halign : offset % 4 = 0) (hpast : 256 ≤ offset)
    (k : Host.Outcome State Fault Refusal) : regAccess offset 4 k = .fault .noSuchAddress := by
  rw [regAccess, if_neg (by omega), if_pos hpast]

theorem memAccess_undefined (s : State) (addr : Nat) {width : Nat} (h : width ∉ [1, 2, 4])
    (k : Host.Outcome State Fault Refusal) : memAccess s addr width k = .refused .undefinedMemAccess :=
  if_pos (by simpa using h)

theorem memAccess_past {s : State} {addr width : Nat} (hwidth : width ∈ [1, 2, 4]) (hpast : s.memBytes < addr + width)
    (k : Host.Outcome State Fault Refusal) : memAccess s addr width k = .fault .noSuchAddress := by
  rw [memAccess, if_neg (not_not.2 (by simpa using hwidth)), if_pos hpast]

section
variable {s : State} {es : List Event}

/-- Reads and writes of the register block pass one test. -/
theorem step_regAccess {offset width : Nat} {v : Word}
    (h : s.pending = .regWrite offset width v :: es ∨ s.pending = .regRead offset width :: es) :
    ∃ k, step s = regAccess offset width k := by
  obtain h | h := h
  · exact ⟨_, step_of_pending h⟩
  · exact ⟨_, step_of_pending h⟩

/-- Reads and writes of operand memory pass one test, which does not depend on the host's queue. -/
theorem step_memAccess {addr width : Nat} {v : Word}
    (h : s.pending = .memWrite addr width v :: es ∨ s.pending = .memRead addr width :: es) :
    ∃ k, step s = memAccess s addr width k := by
  obtain h | h := h
  · exact ⟨_, step_of_pending h⟩
  · exact ⟨_, step_of_pending h⟩

end

/-! ### The bytes of a word (rule R72) -/

@[simp] theorem hostBytes_length (n : Nat) (v : Word) : (hostBytes n v).length = n := by simp [hostBytes]

/-- Byte `i` of a host write is byte `i` of the word, counted from the least significant. -/
theorem hostBytes_getElem (n : Nat) (v : Word) {i : Nat} (h : i < (hostBytes n v).length) :
    (hostBytes n v)[i] = v.extractLsb' (8 * i) 8 := by
  apply BitVec.eq_of_toNat_eq
  simp [hostBytes, Nat.shiftRight_eq_div_pow, Nat.pow_mul]

/-- Byte `i` of a little-endian number is byte `i` of the string, and 0 past its end (rule R11). -/
theorem leNat_byte (s : Bytes) (i : Nat) : leNat s / 256 ^ i % 256 = (s.getD i 0).toNat := by
  induction s generalizing i with
  | nil => simp [leNat]
  | cons b s ih =>
    have hb := b.isLt
    have hcons : leNat (b :: s) = b.toNat + 256 * leNat s := rfl
    cases i with
    | zero =>
      simp only [hcons, pow_zero, List.getD_cons_zero]
      omega
    | succ i =>
      have htail : (b.toNat + 256 * leNat s) / 256 = leNat s := by omega
      rw [hcons, pow_succ', ← Nat.div_div_eq_div_mul, htail, ih, List.getD_cons_succ]

/-- A word holds the low four bytes of a number. -/
theorem ofNat_extractLsb'_byte (x : Nat) {i : Nat} (h : i < 4) :
    ((BitVec.ofNat 32 x).extractLsb' (8 * i) 8).toNat = x / 256 ^ i % 256 := by
  have hword : 2 ^ 32 = 256 ^ i * (256 * 256 ^ (3 - i)) := by
    rw [← mul_assoc, ← pow_succ, ← pow_add, show i + 1 + (3 - i) = 4 by omega]
    rfl
  rw [BitVec.extractLsb'_toNat, BitVec.toNat_ofNat, Nat.shiftRight_eq_div_pow, Nat.pow_mul, hword,
    Nat.mod_mul_right_div_self, Nat.mod_mul_right_mod]

theorem Memory.readBytes_getD (m : Memory) (a n i : Nat) :
    (m.readBytes a n).getD i 0 = if i < n then m.read (a + i) else 0 := by
  by_cases hi : i < n <;> simp [readBytes, hi]

/-- A host read returns the bytes little-endian, zero-extended to a word (rule R72). -/
theorem readMem_byte (s : State) (a n : Nat) {i : Nat} (h : i < 4) :
    (s.readMem a n).extractLsb' (8 * i) 8 = if i < n then s.mem.read (a + i) else 0 := by
  rw [← Memory.readBytes_getD]
  apply BitVec.eq_of_toNat_eq
  rw [← leNat_byte, ← ofNat_extractLsb'_byte _ h]
  rfl

/-! ### The bytes a command can change (rules R73, R75, R106) -/

/-- What a command can leave in operand memory: every byte as it was, or a string no longer than the output the operand
table gives it, at the address that output has. -/
inductive MemChange (i : Instr) (s : State) : Memory → Prop
  | kept : MemChange i s s.mem
  | delivered {o n : Nat} {out : Bytes} (houtput : outputOf i s = some (o, n)) (hlength : out.length ≤ n) :
      MemChange i s (s.mem.writeBytes (s.reg.dstBase.toNat + o) out)

section
variable {i : Instr} {s : State} {m : Memory} (h : MemChange i s m)
include h

theorem MemChange.read_outside {o n a : Nat} (houtput : outputOf i s = some (o, n))
    (ha : a < s.reg.dstBase.toNat + o ∨ s.reg.dstBase.toNat + o + n ≤ a) : m.read a = s.mem.read a := by
  cases h with
  | kept => rfl
  | delivered houtput' hlength =>
    cases houtput'.symm.trans houtput
    exact Memory.read_writeBytes_outside _ _ _ (by omega)

theorem MemChange.eq_of_no_output (houtput : outputOf i s = none) : m = s.mem := by
  cases h with
  | kept => rfl
  | delivered houtput' => cases houtput'.symm.trans houtput

end

/-- A success leaves operand memory as `MemChange` says. -/
def Verdict.ChangesMem (i : Instr) (s : State) (v : Verdict) : Prop := ∀ s' r, v = .ok s' r → MemChange i s s'.mem

section
variable {i : Instr} {s : State} {c : CtxId} {α : Type} {accept : Obj → Option α}

theorem checked_changesMem (cs : List Check) {s' : State} (h : MemChange i s s'.mem) (r : Nat) :
    (checked cs fun _ => .ok s' r).ChangesMem i s := by
  intro s'' r' hok
  cases (checked_ok hok).2
  exact h

theorem named_changesMem {k : Bool → α → Verdict}
    (h : ∀ poison a, accept (s.objAt c) = some a → (k poison a).ChangesMem i s) :
    (named c s accept k).ChangesMem i s := by
  intro s' r hok
  obtain ⟨x, a, hx, ha, hk⟩ := named_ok hok
  exact h x.poison a (by rwa [State.objAt_of_ctxAt hx]) s' r hk

/-- Every next state the outcome can be has an operand memory as `MemChange` says. -/
def OutcomeChangesMem (i : Instr) (s : State) (o : Host.Outcome State Fault Refusal) : Prop :=
  ∀ t, o = .next t → MemChange i s t.mem

theorem finishCommand_changesMem {session : Bool} {v : Verdict} (h : v.ChangesMem i s) :
    OutcomeChangesMem i s (finishCommand session c s v) := by
  intro t ht
  obtain ⟨s', r, hok, rfl⟩ | ⟨e, -, rfl⟩ := finishCommand_next ht
  · exact h s' r hok
  · rw [takeError_mem]
    exact .kept

/-- The shape of every command but `CLONE`: after the checks, the effect on operand memory. -/
theorem effect_changesMem {session : Bool} (checks : Bool → α → List Check) {effect : α → State} {result : α → Nat}
    (h : ∀ a, accept (s.objAt c) = some a → MemChange i s (effect a).mem) :
    OutcomeChangesMem i s (finishCommand session c s (named c s accept fun poison a =>
      checked (checks poison a) fun _ => .ok (effect a) (result a))) :=
  finishCommand_changesMem <| named_changesMem fun _ a ha => checked_changesMem _ (h a ha) _

theorem execClone_changesMem (d src : CtxId) : OutcomeChangesMem i s (execClone d src s) :=
  finishCommand_changesMem <| named_changesMem fun _ _ _ => named_changesMem fun _ _ _ => by
    split
    · exact fun _ _ hok => by cases hok
    · exact checked_changesMem (s := s) (s' := s.setObj d _) _ .kept 0

/-! ### Commands whose output is as long as a digest of their object -/

theorem finalising_changesMem {o : Nat} (houtput : outputOf i s = some (o, (s.objAt c).hashLen)) :
    OutcomeChangesMem i s (finalising c s o) :=
  effect_changesMem _ fun x hx => .delivered houtput <| by
    rw [Obj.asStream_eq_some hx]
    cases x with
    | hash e => exact e.finish_length_le
    | hmac M => exact M.finish_length_le

theorem computing_changesMem (houtput : outputOf i s = some (0, (s.objAt c).hashLen)) (checks : List Check)
    (input : Unit → Bytes) : OutcomeChangesMem i s (computing c s checks input) :=
  effect_changesMem _ fun e he => .delivered houtput <| by
    rw [Obj.asHash_eq_some he]
    exact hashOf_length_le e.cfg _

theorem execMch_changesMem : OutcomeChangesMem (.mch c) s (execMch c s) :=
  effect_changesMem _ fun M hM => .delivered rfl <| by
    rw [Obj.asHmac_eq_some hM]
    exact M.compute_length_le _ _

theorem execHkdfExtract_changesMem (saltp : Bool) :
    OutcomeChangesMem (.hkdfExtract c saltp) s (execHkdfExtract c saltp s) :=
  effect_changesMem _ fun M hM => .delivered rfl <| by
    rw [Obj.asHkdf_eq_some hM]
    exact hkdfExtract_length_le _ _ M

/-! ### Commands whose output has a requested length -/

theorem squeezing_changesMem {o : Nat} {n : Sponge → Nat}
    (houtput : ∀ e, s.objAt c = .hash (.sponge e) → outputOf i s = some (o, n e)) (after : Sponge → Sponge) :
    OutcomeChangesMem i s (squeezing c s o n after) :=
  effect_changesMem _ fun e he => .delivered (houtput e (Obj.asXof_eq_some he)) (e.squeeze_length (n e)).le

theorem computingXof_changesMem (houtput : outputOf i s = some (0, s.dstLen)) (checks : List Check)
    (input : Unit → Bytes) : OutcomeChangesMem i s (computingXof c s checks input) :=
  effect_changesMem _ fun _ _ => .delivered houtput (Sponge.squeeze_length _ _).le

end

/-! ### Every command -/

theorem exec_changesMem (i : Instr) (s : State) : OutcomeChangesMem i s (exec i s) := by
  cases i with
  | reset c | dispose c | getalg c | gethlen c | getblen c | gethf c =>
    exact effect_changesMem (fun _ _ => []) fun _ _ => .kept
  | clone d src => exact execClone_changesMem d src
  | newSha1 c | newSha256 c | newSha512 c | newSha3 c | newShake c | newCshake c namep auxp
  | newBlake2b c keyp saltp auxp | newPbkdf2 c iterp | wrapHmac c | wrapHkdf c | wrapPbkdf2 c iterp
  | updb c b | upd c | updr c | minit c => exact effect_changesMem _ fun _ _ => .kept
  | fin c | fino c => exact finalising_changesMem rfl
  | finol c | outl c => exact squeezing_changesMem (fun _ _ => rfl) _
  | out c =>
    exact squeezing_changesMem (i := .out c) (c := c)
      (fun _ he => congrArg (fun obj : Obj => some (s.dstStart, obj.hashLen)) he) _
  | ch c => exact computing_changesMem (i := .ch c) (c := c) rfl [s.memCheck s.src] fun _ => s.whole s.src
  | chr c => exact computing_changesMem (i := .chr c) (c := c) rfl s.rangeChecks fun _ => s.srcRange
  | chl c => exact computingXof_changesMem rfl [s.memCheck s.src] fun _ => s.whole s.src
  | chrl c => exact computingXof_changesMem rfl s.rangeChecks fun _ => s.srcRange
  | mch c => exact execMch_changesMem
  | hkdfExtract c saltp => exact execHkdfExtract_changesMem saltp
  | hkdfExpand c auxp => exact effect_changesMem _ fun M _ => .delivered rfl (hkdfExpand_length_le _ _ _ M)
  | hkdfDerive c saltp auxp => exact effect_changesMem _ fun M _ => .delivered rfl (hkdfDerive_length_le _ _ _ _ M)
  | pbkdf2Derive c iterp => exact effect_changesMem _ fun x _ => .delivered rfl (pbkdf2Derive_length_le _ _ _ _ x.1)

theorem exec_failed_mem {i : Instr} {s t : State} (h : exec i s = .next t) (hcode : errorCode i s ≠ 0) :
    t.mem = s.mem := by
  have hends := exec_ends i s
  rw [h] at hends
  cases hends with
  | success r hzero _ => exact absurd hzero hcode
  | failure e _ => exact takeError_mem _ _ e s

end Sys2Proof.Machine
end

section
open Sys2Proof Sys2Proof.Machine

/-- Settles O9: a defined write stores the bytes of the word from its least significant one, and a read puts them
together in the same order. -/
theorem hostMemoryAccess : Obligations.HostMemoryAccess := by
  unfold Obligations.HostMemoryAccess
  refine ⟨?_, ?_, fun s a n i _ hi => readMem_byte s a n hi⟩
  · intro s es a n v hwidth hle hpending
    refine ⟨State.writeMem { s with pending := es } a (hostBytes n v), ?_, fun i hi => ?_, fun x hx => ?_,
      rfl, rfl, rfl, rfl⟩
    · rw [step_of_pending hpending]
      exact memAccess_of_defined (by simpa using hwidth) hle _
    · have hi' : i < (hostBytes n v).length := by rwa [hostBytes_length]
      rw [writeMem_mem, Memory.read_writeBytes_inside _ _ _ hi', hostBytes_getElem]
    · exact Memory.read_writeBytes_outside _ _ _ (by rwa [hostBytes_length])
  · intro s es a n hwidth hle hpending
    rw [step_of_pending hpending]
    exact memAccess_of_defined (by simpa using hwidth) hle _

/-- Settles O21: a success writes at most the output of the operand table, and a failure writes nothing. -/
theorem memoryFrame : Obligations.MemoryFrame := by
  unfold Obligations.MemoryFrame
  intro i s t h
  have hchange := exec_changesMem i s t h
  refine ⟨fun o n houtput a ha => hchange.read_outside houtput ha, fun houtput a => ?_, fun hcode a => ?_⟩
  · rw [hchange.eq_of_no_output houtput]
  · rw [exec_failed_mem h hcode]

/-- Settles O10: both kinds of access go through `regAccess` or `memAccess`, which stop before anything is done. -/
theorem undefinedHostAccessStops : Obligations.UndefinedHostAccessStops := by
  unfold Obligations.UndefinedHostAccessStops
  refine ⟨?_, ?_, ?_, ?_⟩
  · intro s es offset width v hbad hpending
    obtain ⟨k, hstep⟩ := step_regAccess hpending
    rw [hstep, regAccess_undefined hbad]
  · intro s es offset v halign hpast hpending
    obtain ⟨k, hstep⟩ := step_regAccess hpending
    rw [hstep, regAccess_past halign hpast]
  · intro s es a n v hbad hpending
    obtain ⟨k, hstep⟩ := step_memAccess hpending
    rw [hstep, memAccess_undefined s a hbad]
  · intro s es a n v hwidth hpast hpending
    obtain ⟨k, hstep⟩ := step_memAccess hpending
    rw [hstep, memAccess_past hwidth hpast]

end

section
/-! SUPPORT. The command word: its five fields and the word determine each other, the flag bits, and what a word meets
when a row of the opcode table matches it (30_encoding.md rules R100 to R105, R110, R115). -/

namespace Sys2Proof

/-! ### The word and its fields (rules R100, R115) -/

/-- The word of rule R115 is its fields side by side. -/
theorem pack_eq_append (opcode : BitVec 8) (ctx ctx2 : CtxId) (flags : BitVec 8) (imm8 : Byte) :
    pack opcode ctx ctx2 flags imm8 =
      imm8 ++ flags ++ (BitVec.ofFin ctx2 : BitVec 4) ++ (BitVec.ofFin ctx : BitVec 4) ++ opcode := by
  have hwiden (c : CtxId) : BitVec.ofNat 32 c.val = (BitVec.ofFin c : BitVec 4).setWidth 32 :=
    BitVec.ofNat_toNat 32 (BitVec.ofFin c : BitVec 4)
  apply BitVec.eq_of_getLsbD_eq
  intro i hi
  simp only [pack, hwiden, BitVec.getLsbD_append, BitVec.getLsbD_or, BitVec.getLsbD_shiftLeft, BitVec.getLsbD_setWidth]
  grind

/-- The fields side by side are read at the offsets of rule R100. -/
theorem fieldsOf_append (imm8 : Byte) (flags : BitVec 8) (ctx2 ctx : BitVec 4) (opcode : BitVec 8) :
    fieldsOf (imm8 ++ flags ++ ctx2 ++ ctx ++ opcode) = ⟨opcode, ctx.toFin, ctx2.toFin, flags, imm8⟩ := by
  simp only [fieldsOf, Fields.mk.injEq]
  refine ⟨BitVec.extractLsb'_append_eq_right, ?_, ?_, ?_, ?_⟩
  · rw [BitVec.extractLsb'_append_eq_of_le (by decide), BitVec.extractLsb'_append_eq_right]
  · iterate 2 rw [BitVec.extractLsb'_append_eq_of_le (by decide)]
    rw [BitVec.extractLsb'_append_eq_right]
  · iterate 3 rw [BitVec.extractLsb'_append_eq_of_le (by decide)]
    rw [BitVec.extractLsb'_append_eq_right]
  · iterate 3 rw [BitVec.extractLsb'_append_eq_of_le (by decide)]
    rw [BitVec.extractLsb'_append_eq_left]

@[simp] theorem fieldsOf_pack (opcode : BitVec 8) (ctx ctx2 : CtxId) (flags : BitVec 8) (imm8 : Byte) :
    fieldsOf (pack opcode ctx ctx2 flags imm8) = ⟨opcode, ctx, ctx2, flags, imm8⟩ := by
  rw [pack_eq_append, fieldsOf_append]

/-- No bit of a word stands outside the five fields. -/
theorem pack_fieldsOf (w : Word) :
    pack (fieldsOf w).opcode (fieldsOf w).ctx (fieldsOf w).ctx2 (fieldsOf w).flags (fieldsOf w).imm8 = w := by
  simp only [pack_eq_append, fieldsOf, BitVec.ofFin_toFin]
  iterate 4 rw [BitVec.extractLsb'_append_extractLsb'_eq_extractLsb' (by rfl)]
  exact BitVec.extractLsb'_eq_self

theorem fieldsOf_injective : Function.Injective fieldsOf := by
  intro w v h
  rw [← pack_fieldsOf w, h, pack_fieldsOf]

theorem fieldsOf_and (w m : Word) :
    fieldsOf (w &&& m) = ⟨(fieldsOf w).opcode &&& (fieldsOf m).opcode, (fieldsOf w).ctx &&& (fieldsOf m).ctx,
      (fieldsOf w).ctx2 &&& (fieldsOf m).ctx2, (fieldsOf w).flags &&& (fieldsOf m).flags,
      (fieldsOf w).imm8 &&& (fieldsOf m).imm8⟩ := by
  simp only [fieldsOf, BitVec.extractLsb'_and, BitVec.toFin_and]

/-! ### Flags (rule R102) -/

/-- The five flags of rule R102. -/
def flagBits : List (BitVec 8) := [flagKEYP, flagSALTP, flagAUXP, flagNAMEP, flagITERP]

/-- A flag is one bit of the word, so the test for it tells that bit. -/
theorem flagIf_has (f : Fields) {flag : BitVec 8} (h : flag ∈ flagBits) :
    flagIf (f.has flag) flag = f.flags &&& flag := by
  obtain ⟨k, rfl⟩ : ∃ k : Fin 8, flag = BitVec.twoPow 8 k := by
    revert flag
    decide
  have hne : BitVec.twoPow 8 k ≠ 0#8 := by
    clear h
    revert k
    decide
  rw [flagIf, Fields.has, BitVec.and_twoPow]
  cases f.flags.getLsbD k <;> simp [hne]

/-- An option's flag is read back from the word of a command with one option, and no other bit is set. -/
theorem option_readback {flag : BitVec 8} (h : flag ∈ flagBits) (b : Bool) :
    flagIf b flag &&& ~~~flag = 0 ∧ (flagIf b flag &&& flag != 0) = b := by
  revert b flag
  decide

/-- The same for a command with two options, one of them `AUXP`. -/
theorem twoOptions_readback {flag : BitVec 8} (h : flag ∈ [flagNAMEP, flagSALTP]) (b a : Bool) :
    (flagIf b flag ||| flagIf a flagAUXP) &&& ~~~(flag ||| flagAUXP) = 0 ∧
      ((flagIf b flag ||| flagIf a flagAUXP) &&& flag != 0) = b ∧
      ((flagIf b flag ||| flagIf a flagAUXP) &&& flagAUXP != 0) = a := by
  revert b a flag
  decide

/-- The same with the three options of `NEW.BLAKE2B`. -/
theorem threeOptions_readback (k s a : Bool) :
    (flagIf k flagKEYP ||| flagIf s flagSALTP ||| flagIf a flagAUXP) &&& ~~~(flagKEYP ||| flagSALTP ||| flagAUXP) = 0 ∧
      ((flagIf k flagKEYP ||| flagIf s flagSALTP ||| flagIf a flagAUXP) &&& flagKEYP != 0) = k ∧
      ((flagIf k flagKEYP ||| flagIf s flagSALTP ||| flagIf a flagAUXP) &&& flagSALTP != 0) = s ∧
      ((flagIf k flagKEYP ||| flagIf s flagSALTP ||| flagIf a flagAUXP) &&& flagAUXP != 0) = a := by
  revert k s a
  decide

/-! ### Decoding an encoded command -/

/-- Every command's word passes its format's test, and its flags are read back. -/
theorem decode_encode (i : Instr) : decode (encode i) = some i := by
  unfold decode
  cases i with
  | reset c | dispose c | getalg c | gethlen c | getblen c | gethf c | newSha1 c | newSha256 c | newSha512 c
  | newSha3 c | newShake c | wrapHmac c | wrapHkdf c | upd c | updr c | fin c | fino c | finol c | out c | outl c
  | ch c | chr c | chl c | chrl c | minit c | mch c | clone d src | updb c b =>
    rw [encode, fieldsOf_pack]
    rfl
  | wrapPbkdf2 c x | newPbkdf2 c x | hkdfExtract c x | hkdfExpand c x | pbkdf2Derive c x =>
    simpa [encode, formatF, Fields.has] using option_readback (by decide) x
  | newCshake c x y | hkdfDerive c x y =>
    simpa [encode, formatF, Fields.has] using twoOptions_readback (by decide) x y
  | newBlake2b c x y z => simpa [encode, formatF, Fields.has] using threeOptions_readback x y z

/-! ### Encoding a decoded word -/

theorem pack_of_fields {w : Word} {opcode : BitVec 8} {ctx2 : CtxId} {flags : BitVec 8} {imm8 : Byte}
    (hopcode : (fieldsOf w).opcode = opcode) (hctx2 : (fieldsOf w).ctx2 = ctx2) (hflags : (fieldsOf w).flags = flags)
    (himm8 : (fieldsOf w).imm8 = imm8) : pack opcode (fieldsOf w).ctx ctx2 flags imm8 = w := by
  subst hopcode hctx2 hflags himm8
  exact pack_fieldsOf w

theorem and_admitted {flags admitted : BitVec 8} (h : flags &&& ~~~admitted = 0) : flags &&& admitted = flags :=
  calc flags &&& admitted
    _ = flags &&& admitted ||| flags &&& ~~~admitted := by
        rw [h]
        exact BitVec.or_zero.symm
    _ = flags := by rw [← BitVec.and_or_distrib_left, BitVec.or_not_self, BitVec.and_allOnes]

theorem pack_option (f : Fields) {opcode flag : BitVec 8} (h : flag ∈ flagBits) :
    pack opcode f.ctx 0 (flagIf (f.has flag) flag) = pack opcode f.ctx 0 (f.flags &&& flag) := by
  rw [flagIf_has f h]

section
variable (f : Fields)

theorem encode_newCshake_has : encode (.newCshake f.ctx (f.has flagNAMEP) (f.has flagAUXP)) =
    pack 0x15 f.ctx 0 (f.flags &&& (flagNAMEP ||| flagAUXP)) := by
  simp (disch := decide) [encode, flagIf_has, BitVec.and_or_distrib_left]

theorem encode_newBlake2b_has : encode (.newBlake2b f.ctx (f.has flagKEYP) (f.has flagSALTP) (f.has flagAUXP)) =
    pack 0x16 f.ctx 0 (f.flags &&& (flagKEYP ||| flagSALTP ||| flagAUXP)) := by
  simp (disch := decide) [encode, flagIf_has, BitVec.and_or_distrib_left]

theorem encode_hkdfDerive_has : encode (.hkdfDerive f.ctx (f.has flagSALTP) (f.has flagAUXP)) =
    pack 0x42 f.ctx 0 (f.flags &&& (flagSALTP ||| flagAUXP)) := by
  simp (disch := decide) [encode, flagIf_has, BitVec.and_or_distrib_left]

end

section
variable {w : Word} {i j : Instr} {n : Nat} (hopcode : (fieldsOf w).opcode.toNat = n)
include hopcode

theorem opcode_eq_ofNat : (fieldsOf w).opcode = BitVec.ofNat 8 n := by
  rw [← hopcode, BitVec.ofNat_toNat, BitVec.setWidth_eq]

theorem encode_of_formatN (h : formatN (fieldsOf w) j = some i)
    (hj : encode j = pack (BitVec.ofNat 8 n) (fieldsOf w).ctx) : encode i = w := by
  obtain ⟨⟨hctx2, hflags, himm8⟩, hsome⟩ := Option.ite_none_right_eq_some.1 h
  cases hsome
  exact hj.trans (pack_of_fields (opcode_eq_ofNat hopcode) hctx2 hflags himm8)

theorem encode_of_formatC (h : formatC (fieldsOf w) j = some i)
    (hj : encode j = pack (BitVec.ofNat 8 n) (fieldsOf w).ctx (fieldsOf w).ctx2) : encode i = w := by
  obtain ⟨⟨hflags, himm8⟩, hsome⟩ := Option.ite_none_right_eq_some.1 h
  cases hsome
  exact hj.trans (pack_of_fields (opcode_eq_ofNat hopcode) rfl hflags himm8)

theorem encode_of_formatF {admitted : BitVec 8} (h : formatF (fieldsOf w) admitted j = some i)
    (hj : encode j = pack (BitVec.ofNat 8 n) (fieldsOf w).ctx 0 ((fieldsOf w).flags &&& admitted)) : encode i = w := by
  obtain ⟨⟨hctx2, hflags, himm8⟩, hsome⟩ := Option.ite_none_right_eq_some.1 h
  cases hsome
  exact hj.trans (pack_of_fields (opcode_eq_ofNat hopcode) hctx2 (and_admitted hflags).symm himm8)

theorem encode_of_formatI (h : formatI (fieldsOf w) j = some i)
    (hj : encode j = pack (BitVec.ofNat 8 n) (fieldsOf w).ctx 0 0 (fieldsOf w).imm8) : encode i = w := by
  obtain ⟨⟨hctx2, hflags⟩, hsome⟩ := Option.ite_none_right_eq_some.1 h
  cases hsome
  exact hj.trans (pack_of_fields (opcode_eq_ofNat hopcode) hctx2 hflags rfl)

end

/-- Each opcode's format fixes every field its command does not carry. -/
theorem encode_of_decode {w : Word} {i : Instr} (h : decode w = some i) : encode i = w := by
  unfold decode at h
  dsimp only at h
  split at h
  case h_2 hopcode => exact encode_of_formatC hopcode h rfl
  case h_13 hopcode => exact encode_of_formatF hopcode h (encode_newCshake_has _)
  case h_14 hopcode => exact encode_of_formatF hopcode h (encode_newBlake2b_has _)
  case h_17 hopcode => exact encode_of_formatF hopcode h (pack_option _ (by decide))
  case h_18 hopcode => exact encode_of_formatF hopcode h (pack_option _ (by decide))
  case h_19 hopcode => exact encode_of_formatI hopcode h rfl
  case h_33 hopcode => exact encode_of_formatF hopcode h (pack_option _ (by decide))
  case h_34 hopcode => exact encode_of_formatF hopcode h (pack_option _ (by decide))
  case h_35 hopcode => exact encode_of_formatF hopcode h (encode_hkdfDerive_has _)
  case h_36 hopcode => exact encode_of_formatF hopcode h (pack_option _ (by decide))
  case h_37 => cases h
  all_goals
    rename_i hopcode
    exact encode_of_formatN hopcode h rfl

/-! ### The rows of the opcode table (rules R101, R105) -/

open Machine

/-- The row that leaves `ctx` free, fixes the opcode and asks the marked bits of the other fields to be zero. Every row
of the table is one. -/
def rowAsking (opcode : BitVec 8) (ctx2 : CtxId) (flags imm8 : BitVec 8) : OpcodeRow :=
  ⟨pack 0xFF 0 ctx2 flags imm8, pack opcode 0⟩

theorem byte_and_ones (x : BitVec 8) : x &&& 0xFF = x := BitVec.and_allOnes

theorem ctxId_and_zero : ∀ c : CtxId, c &&& 0 = 0 := by decide

theorem ctxId_and_ones : ∀ c : CtxId, c &&& 15 = c := by decide

theorem rowAsking_spells_iff {opcode : BitVec 8} {ctx2 : CtxId} {flags imm8 : BitVec 8} {w : Word} :
    (rowAsking opcode ctx2 flags imm8).spells w = true ↔ (fieldsOf w).opcode = opcode ∧
      (fieldsOf w).ctx2 &&& ctx2 = 0 ∧ (fieldsOf w).flags &&& flags = 0 ∧ (fieldsOf w).imm8 &&& imm8 = 0 := by
  rw [OpcodeRow.spells, beq_iff_eq, ← fieldsOf_injective.eq_iff, fieldsOf_and, rowAsking, fieldsOf_pack, fieldsOf_pack]
  simp only [Fields.mk.injEq, byte_and_ones, ctxId_and_zero, true_and]

/-! #### Every command's word is spelled by a row -/

theorem exists_row_spells_pack {opcode : BitVec 8} {ctx ctx2 c2 : CtxId} {flags imm8 fl im : BitVec 8}
    (hrow : rowAsking opcode c2 fl im ∈ opcodeRows) (hctx2 : ctx2 &&& c2 = 0) (hflags : flags &&& fl = 0)
    (himm8 : imm8 &&& im = 0) : ∃ r ∈ opcodeRows, r.spells (pack opcode ctx ctx2 flags imm8) = true :=
  ⟨_, hrow, rowAsking_spells_iff.2 (by simp [hctx2, hflags, himm8])⟩

theorem exists_row_encode (i : Instr) : ∃ r ∈ opcodeRows, r.spells (encode i) = true := by
  cases i with
  | reset c | dispose c | getalg c | gethlen c | getblen c | gethf c | newSha1 c | newSha256 c | newSha512 c
  | newSha3 c | newShake c | wrapHmac c | wrapHkdf c | upd c | updr c | fin c | fino c | finol c | out c | outl c
  | ch c | chr c | chl c | chrl c | minit c | mch c =>
    exact exists_row_spells_pack (c2 := 15) (fl := 0xFF) (im := 0xFF) (by decide) rfl rfl rfl
  | clone d src =>
    exact exists_row_spells_pack (c2 := 0) (fl := 0xFF) (im := 0xFF) (by decide) (ctxId_and_zero src) rfl rfl
  | updb c b =>
    exact exists_row_spells_pack (c2 := 15) (fl := 0xFF) (im := 0) (by decide) rfl rfl BitVec.and_zero
  | wrapPbkdf2 c x | newPbkdf2 c x | hkdfExtract c x | hkdfExpand c x | pbkdf2Derive c x =>
    exact exists_row_spells_pack (c2 := 15) (im := 0xFF) (by decide) rfl (option_readback (by decide) x).1 rfl
  | newCshake c x y | hkdfDerive c x y =>
    exact exists_row_spells_pack (c2 := 15) (im := 0xFF) (by decide) rfl (twoOptions_readback (by decide) x y).1 rfl
  | newBlake2b c x y z =>
    exact exists_row_spells_pack (c2 := 15) (im := 0xFF) (by decide) rfl (threeOptions_readback x y z).1 rfl

/-! #### Every word a row spells is a command's -/

/-- Every word the row spells is the word of a command. -/
def Encoded (r : OpcodeRow) : Prop := ∀ w, r.spells w = true → ∃ i, encode i = w

section
variable {opcode : BitVec 8}

theorem encoded_formatN (e : CtxId → Instr) (he : ∀ c, encode (e c) = pack opcode c) :
    Encoded (rowAsking opcode 15 0xFF 0xFF) := by
  intro w h
  obtain ⟨hopcode, hctx2, hflags, himm8⟩ := rowAsking_spells_iff.1 h
  rw [ctxId_and_ones] at hctx2
  rw [byte_and_ones] at hflags himm8
  exact ⟨_, (he _).trans (pack_of_fields hopcode hctx2 hflags himm8)⟩

theorem encoded_formatC (e : CtxId → CtxId → Instr) (he : ∀ c c2, encode (e c c2) = pack opcode c c2) :
    Encoded (rowAsking opcode 0 0xFF 0xFF) := by
  intro w h
  obtain ⟨hopcode, -, hflags, himm8⟩ := rowAsking_spells_iff.1 h
  rw [byte_and_ones] at hflags himm8
  exact ⟨_, (he _ _).trans (pack_of_fields hopcode rfl hflags himm8)⟩

theorem encoded_formatF {admitted : BitVec 8} (e : Fields → Instr)
    (he : ∀ f, encode (e f) = pack opcode f.ctx 0 (f.flags &&& admitted)) :
    Encoded (rowAsking opcode 15 (~~~admitted) 0xFF) := by
  intro w h
  obtain ⟨hopcode, hctx2, hflags, himm8⟩ := rowAsking_spells_iff.1 h
  rw [ctxId_and_ones] at hctx2
  rw [byte_and_ones] at himm8
  exact ⟨_, (he _).trans (pack_of_fields hopcode hctx2 (and_admitted hflags).symm himm8)⟩

theorem encoded_formatI (e : CtxId → Byte → Instr) (he : ∀ c b, encode (e c b) = pack opcode c 0 0 b) :
    Encoded (rowAsking opcode 15 0xFF 0) := by
  intro w h
  obtain ⟨hopcode, hctx2, hflags, -⟩ := rowAsking_spells_iff.1 h
  rw [ctxId_and_ones] at hctx2
  rw [byte_and_ones] at hflags
  exact ⟨_, (he _ _).trans (pack_of_fields hopcode hctx2 hflags rfl)⟩

end

/-- Row by row, the command of rule R105. -/
theorem opcodeRows_encoded : ∀ r ∈ opcodeRows, Encoded r := by
  simp only [opcodeRows, List.cons_append, List.nil_append, List.forall_mem_cons]
  exact ⟨encoded_formatN .reset fun _ => rfl, encoded_formatC .clone fun _ _ => rfl,
    encoded_formatN .dispose fun _ => rfl, encoded_formatN .getalg fun _ => rfl,
    encoded_formatN .gethlen fun _ => rfl, encoded_formatN .getblen fun _ => rfl,
    encoded_formatN .gethf fun _ => rfl, encoded_formatN .newSha1 fun _ => rfl,
    encoded_formatN .newSha256 fun _ => rfl, encoded_formatN .newSha512 fun _ => rfl,
    encoded_formatN .newSha3 fun _ => rfl, encoded_formatN .newShake fun _ => rfl,
    encoded_formatF _ encode_newCshake_has, encoded_formatF _ encode_newBlake2b_has,
    encoded_formatN .wrapHmac fun _ => rfl, encoded_formatN .wrapHkdf fun _ => rfl,
    encoded_formatF (fun f => .wrapPbkdf2 f.ctx (f.has flagITERP)) fun f => pack_option f (by decide),
    encoded_formatF (fun f => .newPbkdf2 f.ctx (f.has flagITERP)) fun f => pack_option f (by decide),
    encoded_formatI .updb fun _ _ => rfl, encoded_formatN .upd fun _ => rfl, encoded_formatN .updr fun _ => rfl,
    encoded_formatN .fin fun _ => rfl, encoded_formatN .fino fun _ => rfl, encoded_formatN .finol fun _ => rfl,
    encoded_formatN .out fun _ => rfl, encoded_formatN .outl fun _ => rfl, encoded_formatN .ch fun _ => rfl,
    encoded_formatN .chr fun _ => rfl, encoded_formatN .chl fun _ => rfl, encoded_formatN .chrl fun _ => rfl,
    encoded_formatN .minit fun _ => rfl, encoded_formatN .mch fun _ => rfl,
    encoded_formatF (fun f => .hkdfExtract f.ctx (f.has flagSALTP)) fun f => pack_option f (by decide),
    encoded_formatF (fun f => .hkdfExpand f.ctx (f.has flagAUXP)) fun f => pack_option f (by decide),
    encoded_formatF _ encode_hkdfDerive_has,
    encoded_formatF (fun f => .pbkdf2Derive f.ctx (f.has flagITERP)) fun f => pack_option f (by decide),
    List.forall_mem_nil _⟩

/-! #### Rows do not overlap -/

theorem opcodeRows_val_nodup : (opcodeRows.map OpcodeRow.val).Nodup := by decide

/-- Every row compares the whole opcode, and its match is an opcode. -/
theorem val_of_spells {r : OpcodeRow} {w : Word} (hr : r ∈ opcodeRows) (h : r.spells w = true) :
    r.val = w &&& 0xFF := by
  obtain ⟨hmask, hval⟩ : r.mask &&& 0xFF = 0xFF ∧ r.val &&& 0xFF = r.val := by
    clear h
    revert r
    decide
  calc r.val
    _ = w &&& r.mask &&& 0xFF := by rw [beq_iff_eq.1 h, hval]
    _ = w &&& 0xFF := by rw [BitVec.and_assoc, hmask]

theorem row_unique {r r' : OpcodeRow} {w : Word} (hr : r ∈ opcodeRows) (hr' : r' ∈ opcodeRows)
    (h : r.spells w = true) (h' : r'.spells w = true) : r = r' :=
  List.inj_on_of_nodup_map opcodeRows_val_nodup hr hr' ((val_of_spells hr h).trans (val_of_spells hr' h').symm)

/-- A word is a command's exactly when a row spells it. -/
theorem decode_eq_none_iff (w : Word) : decode w = none ↔ ∀ r ∈ opcodeRows, r.spells w = false := by
  constructor
  · intro hnone r hr
    by_contra hspells
    obtain ⟨i, rfl⟩ := opcodeRows_encoded r hr w (Bool.eq_true_of_not_eq_false hspells)
    rw [decode_encode] at hnone
    cases hnone
  · intro hrows
    by_contra hsome
    obtain ⟨i, hi⟩ := Option.ne_none_iff_exists'.1 hsome
    obtain ⟨r, hr, hspells⟩ := exists_row_encode i
    rw [encode_of_decode hi, hrows r hr] at hspells
    cases hspells

end Sys2Proof
end

section
/-! SUPPORT. The failures no command's own checks decide: a word that spells no command and a context index that is
not below `NCTX` (30_encoding.md rules R104, R111; 60_exceptions.md rule R388). -/

namespace Sys2Proof.Machine

theorem reportFailure_eq_fails (e : ErrCode) (s : State) : reportFailure e s = s.fails e.code := by
  cases e <;> rfl

/-- `IllegalCommand` poisons nothing (rule R387). -/
theorem takeError_illegalCommand (session : Bool) (c : CtxId) (s : State) :
    takeError session c .illegalCommand s = s.fails 4 := by
  have hkept : poisons session .illegalCommand = false := rfl
  rw [takeError_eq, hkept]
  exact reportFailure_eq_fails _ s

theorem issue_of_undecodable {w : Word} (h : decode w = none) (s : State) :
    issue w s = .next ((storeCmd w s).fails 4) := by
  simp only [issue, h]
  exact congrArg _ (reportFailure_eq_fails .illegalCommand _)

theorem exec_of_illegal {i : Instr} {s : State} (h : illegal i s = true) : exec i s = .next (s.fails 4) := by
  have hends := exec_ends i s
  generalize exec i s = outcome at hends ⊢
  have hcode := errorCode_of_illegal h
  cases hends with
  | success r hzero _ =>
    rw [hzero] at hcode
    cases hcode
  | failure e he =>
    obtain rfl : e = .illegalCommand := by
      rw [hcode] at he
      cases e with
      | illegalCommand => rfl
      | stateError | invalidParameter | rangeError => cases he
    rw [takeError_illegalCommand]

/-- Each index a command names is compared with `NCTX` in its causes of `IllegalCommand`; only `CLONE` names two. -/
theorem illegal_of_not_wellFormed {i : Instr} {s : State} (h : i.wellFormed s.nctx = false) : illegal i s = true := by
  unfold Instr.wellFormed at h
  split at h
  case h_1 d src =>
    obtain hd | hsrc := Bool.and_eq_false_iff.1 h
    · simp [illegal, not_lt.1 (of_decide_eq_false hd)]
    · simp [illegal, not_lt.1 (of_decide_eq_false hsrc)]
  case h_2 hclone =>
    rw [illegal]
    · simp [not_lt.1 (of_decide_eq_false h)]
    · exact hclone

end Sys2Proof.Machine
end

section
open Sys2Proof Sys2Proof.Machine

/-- Settles O1: each format's test passes on the word the encoder packs, and each flag is one bit of its own. -/
theorem decodeOfEncode : Obligations.DecodeOfEncode := by
  unfold Obligations.DecodeOfEncode
  exact decode_encode

/-- Settles O2: a format's test leaves no bit of the word free that its command does not carry. -/
theorem encodeOfDecode : Obligations.EncodeOfDecode := by
  unfold Obligations.EncodeOfDecode
  exact fun w i => encode_of_decode

/-- Settles O3: the words the rows spell are the words of commands, and a row's match is the opcode. -/
theorem decodeIsTheOpcodeTable : Obligations.DecodeIsTheOpcodeTable := by
  unfold Obligations.DecodeIsTheOpcodeTable
  exact fun w => ⟨decode_eq_none_iff w, fun r hr r' hr' => row_unique hr hr'⟩

/-- Settles O4: the legal words are the encodings of their commands. -/
theorem workedEncodings : Obligations.WorkedEncodings := by
  unfold Obligations.WorkedEncodings
  exact ⟨decode_encode (.newSha256 0), decode_encode (.updb 2 0x61), decode_encode (.clone 1 0),
    decode_encode (.clone 0 3), decode_encode (.newBlake2b 3 true false true), decode_encode (.hkdfDerive 1 true true),
    decode_encode (.pbkdf2Derive 0 true), decode_encode (.fin 15), by decide, by decide, by decide, by decide,
    by decide, by decide⟩

/-- Settles O6: the write stores the word and reports `IllegalCommand`. -/
theorem undecodableWordFails : Obligations.UndecodableWordFails := by
  unfold Obligations.UndecodableWordFails
  intro s es w hpending hdecode
  rw [step_of_pending hpending, perform_regWrite_cmd, issue_of_undecodable hdecode]
  rfl

/-- Settles O7: an index out of range is a cause of `IllegalCommand`, which comes before every other code. -/
theorem contextIndexOutOfRange : Obligations.ContextIndexOutOfRange := by
  unfold Obligations.ContextIndexOutOfRange
  exact fun i s h => exec_of_illegal (illegal_of_not_wellFormed h)

end

section
/-! SUPPORT. The engine contract and the tables of its numbers: absorption chunk by chunk, the length of a digest, and the
metadata of every object (40_engine_contract.md rules R131 to R133, R143 to R145). -/

namespace Sys2Proof.Machine

/-! ### Metadata (rules R131, R143) -/

theorem SpongeCfg.metadata_eq (cfg : SpongeCfg) : (EngineCfg.sponge cfg).metadata =
    ((EngineCfg.sponge cfg).algId, cfg.hashLen, cfg.rateBytes) := by
  cases cfg with
  | sha3 b | shake b => cases b <;> rfl
  | cshake b N S =>
    cases b <;>
      simp [EngineCfg.metadata, EngineCfg.algId, hashLen, rateBytes, rate, rateOf, bits, isXof, XofBits.val]

theorem EngineCfg.metadata_eq (cfg : EngineCfg) : cfg.metadata = (cfg.algId, cfg.hashLen, cfg.blockLen) := by
  cases cfg with
  | md alg => cases alg <;> rfl
  | sponge cfg => exact cfg.metadata_eq
  | blake cfg =>
    have halg : 7 ||| (8 * cfg.dlen) <<< 8 = 7 + 256 * (8 * cfg.dlen) := by
      rw [Nat.or_comm, ← Nat.shiftLeft_add_eq_or_of_lt (by decide), Nat.shiftLeft_eq]
      omega
    rw [metadata, algId, halg]
    rfl

theorem Obj.metadata_eq (obj : Obj) : obj.metadata = (obj.algId, obj.hashLen, obj.blockLen) := by
  cases obj with
  | empty => rfl
  | hash e => exact e.cfg.metadata_eq
  | hmac M | hkdf M | pbkdf2 M iters => rw [metadata, EngineCfg.metadata_eq]; rfl

/-- An XOF's default number of output bytes (rules R7, R265). -/
theorem SpongeCfg.hashLen_of_isXof {cfg : SpongeCfg} (h : cfg.isXof = true) : cfg.hashLen = cfg.bits / 4 := if_pos h

/-! ### The engine contract (rules R131 to R133) -/

/-- Absorbing the chunks one after another is absorbing the whole (rule R132). -/
theorem Engine.foldl_absorb (e : Engine) (chunks : List Bytes) :
    chunks.foldl (fun e x => e.absorb x) e = e.absorb chunks.flatten := by
  induction chunks generalizing e with
  | nil => simp
  | cons x chunks ih => rw [List.foldl_cons, ih, List.flatten_cons, absorb_append]

theorem blakeOutput_length (h : Words8 64) : (blakeOutput h).length = 64 := by
  simp [blakeOutput, Words8.toList]

/-- A digest has `hashLen` bytes: BLAKE2b's 64 output bytes are enough for every legal `dlen` (rules R131, R305). -/
theorem Engine.finish_length {e : Engine} (h : e.cfg.Inv) : e.finish.1.length = e.hashLen := by
  cases e with
  | md e => exact (MdRegs.digest_length _).trans (congrArg MdAlg.hashLen (Md.foldl_push_alg e _))
  | sponge e => exact e.squeeze_length _
  | blake e =>
    have hdlen : e.cfg.dlen ≤ 64 := (BlakeCfg.Inv.dlen h).2
    simpa [finish, Blake.finish, blakeOutput_length, hashLen, cfg, EngineCfg.hashLen] using hdlen

/-! ### Streams as objects (rules R334, R335) -/

theorem Stream.absorb_eq (x : Stream) (m : Bytes) : x.absorb m = x.toObj.absorbing m := by
  cases x <;> rfl

/-- The digest of a hash engine, or the outer hash of the inner digest (rules R131, R335). -/
theorem Stream.finish_eq (x : Stream) : x.finish = (x.toObj.digest, x.toObj.finished) := by
  cases x with
  | hash e => simp [finish, toObj, Obj.digest, Obj.finished]
  | hmac M =>
    have hmac : M.finish.1 = hashOf M.E.cfg (M.opad ++ M.E.finish.1) := by simp [Hmac.finish, hashOf]
    simp [finish, toObj, Obj.digest, Obj.finished, hmac, Hmac.finish_snd, Hmac.cfg]

theorem Stream.hashLen_eq (x : Stream) : x.hashLen = x.toObj.metadata.2.1 := by
  rw [Obj.metadata_eq]
  cases x <;> rfl

end Sys2Proof.Machine
end

section
/-! SUPPORT. A command with no cause of an error completes: its effect is the next state, reported as rule R385 says
(40_engine_contract.md rules R136, R150 to R161). -/

namespace Sys2Proof.Machine

/-! ### Completion (rules R136, R384, R385) -/

theorem reportSuccess_eq_succeeds (r : Nat) (s : State) : reportSuccess r s = s.succeeds r := rfl

/-- A failure is reported with `ERRF` set, which no success has, so a command with no cause of an error succeeded. -/
theorem exec_verdict {i : Instr} {s : State} {session : Bool} {c : CtxId} {v : Verdict}
    (hexec : exec i s = finishCommand session c s v) (hcode : errorCode i s = 0) :
    ∃ s' r, v = .ok s' r ∧ exec i s = .next (s'.succeeds r) := by
  have hends := exec_ends i s
  generalize hout : exec i s = out at hends
  cases hends with
  | success r _ _ =>
    obtain ⟨s', r', hv, ht⟩ | ⟨e, hv, ht⟩ := finishCommand_next (hexec.symm.trans hout)
    · exact ⟨s', r', hv, by rw [ht, reportSuccess_eq_succeeds]⟩
    · rw [takeError_eq] at ht
      simpa [statusWord] using congrArg (fun t => t.reg.status) ht
  | failure e he => cases e <;> exact absurd (hcode.symm.trans he) (by decide)

/-- The shape of every command but `CLONE` (compare `Row.ends`): its context holds an object of an accepted kind, and its
effect is the next state. -/
theorem exec_completes {i : Instr} {s : State} {session : Bool} {c : CtxId} {α : Type} {accept : Obj → Option α}
    (checks : Bool → α → List Check) (effect : α → State) (result : α → Nat)
    (hexec : exec i s = finishCommand session c s (named c s accept fun poison a =>
      checked (checks poison a) fun _ => .ok (effect a) (result a)))
    (hcode : errorCode i s = 0) :
    ∃ a, accept (s.objAt c) = some a ∧ exec i s = .next ((effect a).succeeds (result a)) := by
  obtain ⟨s', r, hv, ht⟩ := exec_verdict hexec hcode
  obtain ⟨x, a, hx, ha, hchecked⟩ := named_ok hv
  obtain ⟨rfl, rfl⟩ := Verdict.ok.inj (checked_ok hchecked).2
  exact ⟨a, by rwa [State.objAt_of_ctxAt hx], ht⟩

/-! ### The families of commands -/

section
variable {i : Instr} {s : State} {c : CtxId} {o : Nat} (checks : List Check) (input : Unit → Bytes)
  (hcode : errorCode i s = 0)
include hcode

/-- `GETALG`, `GETHLEN` and `GETBLEN` (rules R143 to R145). -/
theorem reading_completes (f : Obj → Nat)
    (hexec : exec i s = finishCommand false c s (named c s Obj.asAny fun _ obj => .ok s (f obj))) :
    exec i s = .next (s.succeeds (f (s.objAt c))) := by
  obtain ⟨obj, hobj, ht⟩ := exec_completes (fun _ _ => []) (fun _ => s) f hexec hcode
  rw [Obj.asAny_eq_some hobj, ht]

/-- `RESET` and `DISPOSE` (rules R140, R142). -/
theorem replacing_completes (f : Obj → Obj)
    (hexec : exec i s = finishCommand false c s (named c s Obj.asAny fun _ obj => .ok (s.setObj c (f obj)) 0)) :
    exec i s = .next ((s.holding c (f (s.objAt c))).succeeds 0) := by
  obtain ⟨obj, hobj, ht⟩ := exec_completes (fun _ _ => []) (fun obj => s.setObj c (f obj)) (fun _ => 0) hexec hcode
  rw [Obj.asAny_eq_some hobj]
  exact ht

theorem absorbing_completes (hexec : exec i s = absorbing c s checks input) :
    exec i s = .next ((s.holding c ((s.objAt c).absorbing (input ()))).succeeds 0) := by
  obtain ⟨x, hx, ht⟩ := exec_completes _ _ _ hexec hcode
  rw [Obj.asStream_eq_some hx, ← Stream.absorb_eq]
  exact ht

theorem finalising_completes (hexec : exec i s = finalising c s o) :
    exec i s = .next (((s.delivering o (s.objAt c).digest).holding c (s.objAt c).finished).succeeds
      (s.objAt c).metadata.2.1) := by
  obtain ⟨x, hx, ht⟩ := exec_completes _ _ _ hexec hcode
  rw [Stream.finish_eq, Stream.hashLen_eq, ← Obj.asStream_eq_some hx] at ht
  exact ht

theorem computing_completes {e : Engine} (hobj : s.objAt c = .hash e) (hexec : exec i s = computing c s checks input) :
    exec i s = .next ((s.delivering 0 (hashOf e.cfg (input ()))).succeeds e.cfg.metadata.2.1) := by
  obtain ⟨e', he, ht⟩ := exec_completes _ _ _ hexec hcode
  obtain rfl : e = e' := by simpa [hobj] using Obj.asHash_eq_some he
  rw [EngineCfg.metadata_eq]
  exact ht

section
variable {e : Sponge} (hobj : s.objAt c = .hash (.sponge e))
include hobj

theorem squeezing_completes {n : Sponge → Nat} {after : Sponge → Sponge} (hexec : exec i s = squeezing c s o n after) :
    e.cfg.isXof = true ∧ exec i s = .next
      (((s.delivering o (e.squeeze (n e)).1).holding c (.hash (.sponge (after e)))).succeeds (n e)) := by
  obtain ⟨e', he, ht⟩ := exec_completes _ _ _ hexec hcode
  obtain rfl : e = e' := by simpa [hobj] using Obj.asXof_eq_some he
  rw [hobj] at he
  exact ⟨(Option.ite_none_right_eq_some.1 he).1, ht⟩

theorem computingXof_completes (hexec : exec i s = computingXof c s checks input) :
    exec i s = .next ((s.delivering 0 (xofOf e.cfg (input ()) s.dstLen)).succeeds s.dstLen) := by
  obtain ⟨e', he, ht⟩ := exec_completes _ _ _ hexec hcode
  obtain rfl : e = e' := by simpa [hobj] using Obj.asXof_eq_some he
  exact ht

end

end

/-- `CLONE`: the destination holds the fresh copy of the source (rule R141). -/
theorem execClone_completes {d src : CtxId} {s : State} (hcode : errorCode (.clone d src) s = 0) :
    exec (.clone d src) s = .next ((s.holding d (s.objAt src).refresh).succeeds 0) := by
  obtain ⟨s', r, hv, ht⟩ := exec_verdict rfl hcode
  obtain ⟨_, _, _, _, hsource⟩ := named_ok hv
  obtain ⟨x, obj, hx, hobj, hok⟩ := named_ok hsource
  split at hok
  · cases hok
  · obtain ⟨rfl, rfl⟩ := Verdict.ok.inj (checked_ok hok).2
    rw [State.objAt_of_ctxAt hx, Obj.asAny_eq_some hobj]
    exact ht

end Sys2Proof.Machine
end

section
open Sys2Proof Sys2Proof.Machine

/-- Settles O27: absorption is a fold over the bytes, so chunks absorbed one by one are their concatenation absorbed. -/
theorem streamingEquivalence : Obligations.StreamingEquivalence := by
  unfold Obligations.StreamingEquivalence
  exact ⟨Engine.absorb_nil, Engine.absorb_append, fun cfg chunks => by rw [Engine.foldl_absorb, hashOf]⟩

/-- Settles O28: the configuration alone fixes the length of the digest and the fresh object. -/
theorem finishGivesFresh : Obligations.FinishGivesFresh := by
  unfold Obligations.FinishGivesFresh
  intro e h
  rw [EngineCfg.metadata_eq]
  exact ⟨Engine.finish_length h.cfg, e.finish_snd, rfl, rfl, e.absorb_cfg⟩

/-- Settles O45: each command puts one object in its context, and the fresh object keeps the key and the pads. -/
theorem resetDisposeClone : Obligations.ResetDisposeClone := by
  unfold Obligations.ResetDisposeClone
  refine ⟨fun c s h => replacing_completes h Obj.refresh rfl,
    fun c s h => replacing_completes h (fun _ => .empty) rfl, fun d src s h => execClone_completes h,
    fun _ => rfl, fun M hinit => ?_, fun M hinit => ?_, fun M N iters h => ?_⟩
  · rw [Obj.refresh, Hmac.refresh, if_pos hinit]
    rfl
  · rw [Obj.refresh, Hmac.refresh, if_neg (by simp [hinit])]
    rfl
  · obtain rfl := Obj.hmac.inj h
    exact ⟨rfl, rfl⟩

/-- Settles O46: the commands read the numbers off the object, and the object's numbers are those of the tables. -/
theorem metadataCommands : Obligations.MetadataCommands := by
  unfold Obligations.MetadataCommands
  intro c s
  rw [Obj.metadata_eq]
  refine ⟨fun h => reading_completes h Obj.algId rfl, fun h => reading_completes h Obj.hashLen rfl,
    fun h => reading_completes h Obj.blockLen rfl, fun M hM h => ?_⟩
  obtain ⟨M', hM', ht⟩ := exec_completes (fun _ _ => []) (fun _ => s) (fun M : Hmac => M.cfg.algId) rfl h
  obtain rfl : M = M' := by simpa [hM] using Obj.asHmac_eq_some hM'
  rw [EngineCfg.metadata_eq]
  exact ht

/-- Settles O51: the three commands differ only in the bytes they take in. -/
theorem updateCommands : Obligations.UpdateCommands := by
  unfold Obligations.UpdateCommands
  exact fun c s => ⟨fun b h => absorbing_completes [] (fun _ => [b]) h rfl,
    fun h => absorbing_completes [s.memCheck s.src] (fun _ => s.whole s.src) h rfl,
    fun h => absorbing_completes s.rangeChecks (fun _ => s.srcRange) h rfl⟩

/-- Settles O52: the two commands differ only in the offset they write at. -/
theorem finalCommands : Obligations.FinalCommands := by
  unfold Obligations.FinalCommands
  exact fun c s => ⟨fun h => finalising_completes h rfl, fun h => finalising_completes h rfl⟩

/-- Settles O53: the three commands differ in the number of bytes and in the object left; an XOF's `hashLen` is `bits / 4`. -/
theorem xofOutputCommands : Obligations.XofOutputCommands := by
  unfold Obligations.XofOutputCommands
  refine fun c s e hobj => ⟨fun h => ?_, fun h => (squeezing_completes h hobj rfl).2,
    fun h => (squeezing_completes h hobj rfl).2⟩
  obtain ⟨hxof, ht⟩ := squeezing_completes h hobj rfl
  rw [← SpongeCfg.hashLen_of_isXof hxof]
  exact ht

/-- Settles O54: the two commands differ only in the bytes they hash. -/
theorem computeHashCommands : Obligations.ComputeHashCommands := by
  unfold Obligations.ComputeHashCommands
  exact fun c s e hobj => ⟨fun h => computing_completes [s.memCheck s.src] (fun _ => s.whole s.src) h hobj rfl,
    fun h => computing_completes s.rangeChecks (fun _ => s.srcRange) h hobj rfl⟩

end

section
/-! SUPPORT. The sponge engine in closed form: what its object is after a byte string has been absorbed and after bytes of
output have been squeezed, in terms of the padded blocks and the output stream of 42_sponge_keccak.md rule R263. -/

namespace Sys2Proof.Machine

/-! ### Whole blocks and the rest of a byte string -/

/-- What follows the whole blocks of `q` bytes. -/
def restOf (q : Nat) (s : Bytes) : Bytes := s.drop (q * (s.length / q))

theorem restOf_length (q : Nat) (s : Bytes) : (restOf q s).length = s.length % q := by
  rw [restOf, List.length_drop, Nat.mod_eq_sub_mul_div]

theorem slice_append_of_le {s : Bytes} {a n : Nat} (h : a + n ≤ s.length) (t : Bytes) :
    slice (s ++ t) a n = slice s a n := by
  rw [slice, slice, List.drop_append_of_le_length (by omega), List.take_append_of_le_length]
  rw [List.length_drop]
  omega

/-- The whole blocks of a string are the first blocks of every longer one. -/
theorem map_slice_append (q : Nat) (s t : Bytes) :
    (List.range (s.length / q)).map (fun i => slice (s ++ t) (q * i) q) = blocksOf q s := by
  refine List.map_congr_left fun i hi => slice_append_of_le ?_ t
  calc q * i + q = q * (i + 1) := (Nat.mul_succ q i).symm
    _ ≤ q * (s.length / q) := Nat.mul_le_mul_left q (List.mem_range.1 hi)
    _ ≤ s.length := Nat.mul_div_le s.length q

section
variable {q : Nat} {s t : Bytes}

/-- Bytes that do not fill the block begun leave the whole blocks as they are and join the rest. -/
theorem blocksOf_append_of_room (h : s.length % q + t.length < q) :
    blocksOf q (s ++ t) = blocksOf q s ∧ restOf q (s ++ t) = restOf q s ++ t := by
  have hsplit := Nat.mod_add_div s.length q
  have hcount : (s ++ t).length / q = s.length / q :=
    ((Nat.div_mod_unique (c := s.length % q + t.length) (by omega)).2
      ⟨by rw [List.length_append]; omega, h⟩).1
  rw [blocksOf, restOf, hcount, List.drop_append_of_le_length (Nat.mul_div_le s.length q)]
  exact ⟨map_slice_append q s t, rfl⟩

/-- Bytes that fill the block begun make it the last whole block. -/
theorem blocksOf_append_of_full (hq : 0 < q) (h : s.length % q + t.length = q) :
    blocksOf q (s ++ t) = blocksOf q s ++ [restOf q s ++ t] ∧ restOf q (s ++ t) = [] := by
  have hsplit := Nat.mod_add_div s.length q
  have hlength : (s ++ t).length = q * (s.length / q + 1) := by
    rw [List.length_append, Nat.mul_succ]
    omega
  have hcount : (s ++ t).length / q = s.length / q + 1 := by rw [hlength, Nat.mul_div_cancel_left _ hq]
  have hlast : slice (s ++ t) (q * (s.length / q)) q = restOf q s ++ t := by
    rw [slice, List.drop_append_of_le_length (Nat.mul_div_le s.length q)]
    exact List.take_of_length_le (by rw [List.length_append, List.length_drop]; omega)
  refine ⟨?_, by rw [restOf, hcount, ← hlength, List.drop_length]⟩
  rw [blocksOf, hcount, List.range_succ, List.map_append, map_slice_append, List.map_singleton, hlast]

end

/-! ### Storing bytes and bits in a queue -/

theorem set_length_append (t : Bytes) (x b : Byte) (u : Bytes) : (t ++ x :: u).set t.length b = t ++ b :: u := by
  simp

theorem setBit_append_cons (t : Bytes) (x : Byte) (u : Bytes) {i : Nat} (hi : i / 8 = t.length) :
    setBit (t ++ x :: u) i = t ++ (x ||| (1 : Byte) <<< (i % 8)) :: u := by
  simp [setBit, hi, List.modify_eq_take_drop]

@[simp] theorem zeros_zero : zeros 0 = [] := rfl

theorem zeros_succ (n : Nat) : zeros (n + 1) = 0 :: zeros n := rfl

theorem zeros_append_zero (n : Nat) : zeros (n + 1) = zeros n ++ [0] := List.replicate_succ'

/-- The suffix byte and the last bit, set in a queue whose free bytes are zero, are the padding of rule R263. -/
theorem setBit_setBit_zeroTail (t : Bytes) (n d : Nat) (x : Byte) (hn : 0 < n) (hd : d < 8) :
    setBit (setBit ((t ++ zeros n).set t.length x) (8 * t.length + d)) (8 * (t.length + n) - 1) =
      t ++ if n = 1 then [x ||| (1 : Byte) <<< d ||| 0x80] else [x ||| (1 : Byte) <<< d] ++ zeros (n - 2) ++ [0x80] := by
  obtain ⟨n, rfl⟩ := Nat.exists_eq_succ_of_ne_zero (by omega : n ≠ 0)
  rw [Nat.succ_eq_add_one, zeros_succ, set_length_append, setBit_append_cons _ _ _ (by omega : _ = t.length),
    show (8 * t.length + d) % 8 = d by omega]
  cases n with
  | zero =>
    rw [if_pos rfl, setBit_append_cons _ _ _ (by omega : _ = t.length),
      show (8 * (t.length + (0 + 1)) - 1) % 8 = 7 by omega]
    rfl
  | succ n =>
    have hlast : (8 * (t.length + (n + 1 + 1)) - 1) / 8 = (t ++ (x ||| (1 : Byte) <<< d) :: zeros n).length := by
      simp only [List.length_append, List.length_cons, zeros_length]
      omega
    rw [if_neg (by omega), zeros_append_zero, ← List.cons_append, ← List.append_assoc,
      setBit_append_cons _ _ _ hlast, show (8 * (t.length + (n + 1 + 1)) - 1) % 8 = 7 by omega]
    simp

/-! ### Absorbing (rules R254 to R256) -/

theorem SpongeCfg.rate_eq (cfg : SpongeCfg) : cfg.rate = 8 * cfg.rateBytes := by
  have := cfg.rate_lanes
  rw [rateBytes]
  omega

theorem SpongeCfg.rateBytes_pos (cfg : SpongeCfg) : 0 < cfg.rateBytes := by
  have := cfg.rate_lanes
  rw [rateBytes]
  omega

/-- Every block exclusive-ored and permuted, from the zero state (rule R263). -/
def spongeChain (cfg : SpongeCfg) (blocks : List Bytes) : Lanes :=
  blocks.foldl (fun A block => keccakF (xorBlock A block (cfg.rate / 64))) zeroLanes

theorem spongeChain_concat (cfg : SpongeCfg) (blocks : List Bytes) (block : Bytes) :
    spongeChain cfg (blocks ++ [block]) = keccakF (xorBlock (spongeChain cfg blocks) block (cfg.rate / 64)) :=
  List.foldl_concat ..

/-- The object that has absorbed `p` from the zero state: the whole blocks are in the state, the rest is queued. -/
def Sponge.absorbed (cfg : SpongeCfg) (p : Bytes) : Sponge where
  cfg := cfg
  A := spongeChain cfg (blocksOf cfg.rateBytes p)
  queue := restOf cfg.rateBytes p ++ zeros (cfg.rateBytes - p.length % cfg.rateBytes)
  bitsInQueue := 8 * (p.length % cfg.rateBytes)
  squeezing := false

theorem Sponge.absorbed_nil (cfg : SpongeCfg) : Sponge.absorbed cfg [] =
    { cfg := cfg, A := zeroLanes, queue := zeros cfg.rateBytes, bitsInQueue := 0, squeezing := false } := by
  simp [absorbed, blocksOf, restOf, spongeChain]

/-- Storing a byte in the first free position of a queue. -/
theorem restOf_zeros_set {q : Nat} (hq : 0 < q) (p : Bytes) (b : Byte) :
    (restOf q p ++ zeros (q - p.length % q)).set (p.length % q) b =
      restOf q p ++ b :: zeros (q - (p.length % q + 1)) := by
  have hroom := Nat.mod_lt p.length hq
  rw [show q - p.length % q = q - (p.length % q + 1) + 1 by omega, zeros_succ, ← restOf_length, set_length_append]

/-- The blocks are permuted in one after another, as they fill (rules R255, R256). -/
theorem Sponge.absorbByte_absorbed (cfg : SpongeCfg) (p : Bytes) (b : Byte) :
    (absorbed cfg p).absorbByte b = absorbed cfg (p ++ [b]) := by
  have hq := cfg.rateBytes_pos
  have hroom := Nat.mod_lt p.length hq
  have hrate := cfg.rate_eq
  have hqueue := restOf_zeros_set hq p b
  by_cases hfull : p.length % cfg.rateBytes + 1 = cfg.rateBytes
  · obtain ⟨hblocks, hrest⟩ := blocksOf_append_of_full (t := [b]) hq hfull
    have hmod : (p.length + 1) % cfg.rateBytes = 0 := by rw [← Nat.mod_add_mod, hfull, Nat.mod_self]
    have hbits : (absorbed cfg p).bitsInQueue + 8 = (absorbed cfg p).cfg.rate := by
      simp only [absorbed]; omega
    rw [hfull, Nat.sub_self, zeros_zero] at hqueue
    rw [absorbByte, if_pos hbits]
    simp [xorQueueAndPermute, absorbed, hqueue, hblocks, hrest, hmod, spongeChain_concat]
  · obtain ⟨hblocks, hrest⟩ := blocksOf_append_of_room (q := cfg.rateBytes) (s := p) (t := [b])
      (by simp only [List.length_singleton]; omega)
    have hmod : (p.length + 1) % cfg.rateBytes = p.length % cfg.rateBytes + 1 := by
      rw [← Nat.mod_add_mod, Nat.mod_eq_of_lt (by omega)]
    have hbits : (absorbed cfg p).bitsInQueue + 8 ≠ (absorbed cfg p).cfg.rate := by
      simp only [absorbed]; omega
    rw [absorbByte, if_neg hbits]
    simp [absorbed, hqueue, hblocks, hrest, hmod, Nat.mul_succ]

theorem Sponge.absorb_absorbed (cfg : SpongeCfg) (p m : Bytes) :
    (absorbed cfg p).absorb m = absorbed cfg (p ++ m) := by
  induction m generalizing p with
  | nil => rw [absorb_nil, List.append_nil]
  | cons b m ih => rw [absorb_cons, absorbByte_absorbed, ih, List.append_assoc, List.singleton_append]

/-- A session's object is fixed by CSHAKE's opening bytes and the message (rules R132, R254, R267). -/
theorem Sponge.fresh_absorb (cfg : SpongeCfg) (m : Bytes) :
    (Sponge.fresh cfg).absorb m = absorbed cfg (cfg.prefixBytes ++ m) := by
  rw [fresh, ← absorbed_nil, absorb_absorbed, absorb_absorbed, List.nil_append]

/-! ### Squeezing (rules R261 to R264) -/

/-- The suffix is its `d` low bits, and the bit after them is the first of the padding. -/
theorem SpongeCfg.suffix_padded (cfg : SpongeCfg) : cfg.suffix.2 < 8 ∧
    (cfg.suffix.1 &&& BitVec.ofNat 8 (2 ^ cfg.suffix.2 - 1)) ||| (1 : Byte) <<< cfg.suffix.2 =
      cfg.suffix.1 ||| ((1 <<< cfg.suffix.2 : Nat) : Byte) := by
  unfold suffix
  split_ifs <;> decide

theorem spongePad_length (cfg : SpongeCfg) (len : Nat) :
    len % cfg.rateBytes + (spongePad cfg len).length = cfg.rateBytes := by
  have hroom := Nat.mod_lt len cfg.rateBytes_pos
  simp only [spongePad]
  split <;> simp <;> omega

/-- The squeezing object that has delivered `n` bytes of block `t` of the stream of `m`. -/
def Sponge.reading (cfg : SpongeCfg) (m : Bytes) (t n : Nat) : Sponge where
  cfg := cfg
  A := spongeOutputState cfg m t
  queue := stateBytes (spongeOutputState cfg m t) (cfg.rate / 64)
  bitsInQueue := cfg.rate - 8 * n
  squeezing := true

/-- The object after `k` bytes of the stream: a block is left in the queue until the next byte is asked for, so it is the
block of the last byte read (rule R264). -/
def Sponge.squeezed (cfg : SpongeCfg) (m : Bytes) : Nat → Sponge
  | 0 => reading cfg m 0 0
  | k + 1 => reading cfg m (k / cfg.rateBytes) (k % cfg.rateBytes + 1)

/-- The queue with the suffix and the last bit set is the last block of the padded string (rules R262, R263). -/
theorem Sponge.padded_queue (cfg : SpongeCfg) (p : Bytes) :
    setBit (setBit ((absorbed cfg p).queue.set (p.length % cfg.rateBytes)
        (cfg.suffix.1 &&& BitVec.ofNat 8 (2 ^ cfg.suffix.2 - 1)))
      (8 * (p.length % cfg.rateBytes) + cfg.suffix.2)) (cfg.rate - 1) =
    restOf cfg.rateBytes p ++ spongePad cfg p.length := by
  obtain ⟨hd, hsuffix⟩ := cfg.suffix_padded
  have hroom := Nat.mod_lt p.length cfg.rateBytes_pos
  have h := setBit_setBit_zeroTail (restOf cfg.rateBytes p) (cfg.rateBytes - p.length % cfg.rateBytes)
    cfg.suffix.2 (cfg.suffix.1 &&& BitVec.ofNat 8 (2 ^ cfg.suffix.2 - 1)) (by omega) hd
  rwa [hsuffix, restOf_length, Nat.add_sub_cancel' hroom.le, ← cfg.rate_eq] at h

/-- The switch of phase permutes in the padded last block (rules R262, R263). -/
theorem Sponge.padAndSwitch_absorbed (cfg : SpongeCfg) (m : Bytes) :
    (absorbed cfg (cfg.prefixBytes ++ m)).padAndSwitch = squeezed cfg m 0 := by
  have hA : spongeOutputState cfg m 0 = spongeChain cfg (blocksOf cfg.rateBytes
      (cfg.prefixBytes ++ m ++ spongePad cfg (cfg.prefixBytes ++ m).length)) := rfl
  generalize cfg.prefixBytes ++ m = p at *
  have hblocks := (blocksOf_append_of_full cfg.rateBytes_pos (spongePad_length cfg p.length)).1
  have hbits : (absorbed cfg p).bitsInQueue = 8 * (p.length % cfg.rateBytes) := rfl
  have hcfg : (absorbed cfg p).cfg = cfg := rfl
  rw [hblocks, spongeChain_concat, ← padded_queue] at hA
  simp only [padAndSwitch, extract, xorQueueAndPermute, hbits, hcfg, Nat.mul_div_cancel_left _ (by decide : 0 < 8),
    squeezed, reading, hA]
  rfl

theorem Sponge.refill_reading_of_lt {cfg : SpongeCfg} {n : Nat} (h : n < cfg.rateBytes) (m : Bytes) (t : Nat) :
    (reading cfg m t n).refill = reading cfg m t n := by
  have hrate := cfg.rate_eq
  have hbits : (reading cfg m t n).bitsInQueue ≠ 0 := by simp only [reading]; omega
  rw [refill, if_neg hbits]

theorem Sponge.refill_reading_full (cfg : SpongeCfg) (m : Bytes) (t : Nat) :
    (reading cfg m t cfg.rateBytes).refill = reading cfg m (t + 1) 0 := by
  have hrate := cfg.rate_eq
  have hbits : (reading cfg m t cfg.rateBytes).bitsInQueue = 0 := by simp only [reading]; omega
  rw [refill, if_pos hbits]
  simp [reading, extract, spongeOutputState]

/-- Byte `k` stands in block `k / rateBytes`: either the byte before it does too, or that byte was the last of its block
and a refill comes first (rule R264). -/
theorem Sponge.refill_squeezed (cfg : SpongeCfg) (m : Bytes) (k : Nat) :
    (squeezed cfg m k).refill = reading cfg m (k / cfg.rateBytes) (k % cfg.rateBytes) := by
  have hq := cfg.rateBytes_pos
  cases k with
  | zero => rw [squeezed, refill_reading_of_lt hq, Nat.zero_div, Nat.zero_mod]
  | succ j =>
    have hsplit := Nat.mod_add_div j cfg.rateBytes
    have hlt := Nat.mod_lt j hq
    rw [squeezed]
    by_cases hlast : j % cfg.rateBytes + 1 = cfg.rateBytes
    · obtain ⟨hdiv, hmod⟩ := (Nat.div_mod_unique hq (a := j + 1) (c := 0)
        (d := j / cfg.rateBytes + 1)).2 ⟨by rw [Nat.mul_succ]; omega, hq⟩
      rw [hlast, refill_reading_full, hdiv, hmod]
    · obtain ⟨hdiv, hmod⟩ := (Nat.div_mod_unique hq (a := j + 1) (c := j % cfg.rateBytes + 1)
        (d := j / cfg.rateBytes)).2 ⟨by omega, by omega⟩
      rw [refill_reading_of_lt (by omega), hdiv, hmod]

theorem spongeSegment_succ (cfg : SpongeCfg) (m : Bytes) (k n : Nat) :
    spongeSegment cfg m k (n + 1) = spongeStream cfg m k :: spongeSegment cfg m (k + 1) n := by
  simp [spongeSegment, List.range_succ_eq_map, Nat.add_assoc, Nat.add_comm 1]

/-- Squeezing reads the stream from where it stands and stands where it stops (rules R134, R264). -/
theorem Sponge.squeezeLoop_squeezed (cfg : SpongeCfg) (m : Bytes) (k n : Nat) :
    squeezeLoop n (squeezed cfg m k) = (spongeSegment cfg m k n, squeezed cfg m (k + n)) := by
  induction n generalizing k with
  | zero => rfl
  | succ n ih =>
    have hrate := cfg.rate_eq
    have hlt := Nat.mod_lt k cfg.rateBytes_pos
    have hindex : (cfg.rate - (cfg.rate - 8 * (k % cfg.rateBytes))) / 8 = k % cfg.rateBytes := by omega
    have hnext : { reading cfg m (k / cfg.rateBytes) (k % cfg.rateBytes) with
        bitsInQueue := (reading cfg m (k / cfg.rateBytes) (k % cfg.rateBytes)).bitsInQueue - 8 } =
        squeezed cfg m (k + 1) := by
      simp [reading, squeezed, Nat.mul_succ, Nat.sub_sub]
    have hbyte : (reading cfg m (k / cfg.rateBytes) (k % cfg.rateBytes)).queue.getD
        ((cfg.rate - (reading cfg m (k / cfg.rateBytes) (k % cfg.rateBytes)).bitsInQueue) / 8) 0 =
        spongeStream cfg m k := by
      simp only [reading, hindex, spongeStream]
    rw [squeezeLoop, refill_squeezed, spongeSegment_succ, show k + (n + 1) = k + 1 + n by omega, ← hbyte]
    simp only [hnext, ih]
    rfl

/-- The first squeeze of a session reads the stream from its beginning (rules R262, R264). -/
theorem Sponge.squeeze_fresh_absorb (cfg : SpongeCfg) (m : Bytes) (n : Nat) :
    ((Sponge.fresh cfg).absorb m).squeeze n = (spongeSegment cfg m 0 n, squeezed cfg m n) := by
  rw [squeeze, if_neg (by simp), fresh_absorb, padAndSwitch_absorbed, squeezeLoop_squeezed, Nat.zero_add]

theorem Sponge.squeeze_squeezed (cfg : SpongeCfg) (m : Bytes) (k n : Nat) :
    (squeezed cfg m k).squeeze n = (spongeSegment cfg m k n, squeezed cfg m (k + n)) := by
  have hsqueezing : (squeezed cfg m k).squeezing = true := by cases k <;> rfl
  rw [squeeze, if_pos hsqueezing, squeezeLoop_squeezed]

theorem xofOf_eq_spongeSegment (cfg : SpongeCfg) (m : Bytes) (n : Nat) : xofOf cfg m n = spongeSegment cfg m 0 n := by
  rw [xofOf, Sponge.squeeze_fresh_absorb]

end Sys2Proof.Machine
end

section
open Sys2Proof Sys2Proof.Machine

/-- Settles O35: after `k` bytes the object is the one that stands at byte `k` of the stream, however they were read. -/
theorem spongeComputesTheStream : Obligations.SpongeComputesTheStream := by
  unfold Obligations.SpongeComputesTheStream
  intro cfg m k n
  have hcfg : (Sponge.squeezed cfg m k).cfg = cfg := by cases k <;> rfl
  simp only [Sponge.finish, Sponge.squeeze_fresh_absorb, Sponge.squeeze_squeezed, Sponge.absorb_cfg,
    Sponge.fresh_cfg, hcfg, and_self]

/-- Settles O55: a one-shot squeeze is the first squeeze of a session on the input. -/
theorem computeXofCommands : Obligations.ComputeXofCommands := by
  unfold Obligations.ComputeXofCommands
  intro c s e hobj
  simp only [← xofOf_eq_spongeSegment]
  exact ⟨fun h => computingXof_completes [s.memCheck s.src] (fun _ => s.whole s.src) h hobj rfl,
    fun h => computingXof_completes s.rangeChecks (fun _ => s.srcRange) h hobj rfl⟩

end

section
/-! SUPPORT. The Merkle–Damgård engine in closed form: its byte counter, its padding, and what its object is after a byte
string has been pushed, in terms of the whole blocks of 41_md_sha.md rules R203 to R206. -/

namespace Sys2Proof.Machine

/-! ### The byte counter (rule R204) -/

/-- SHA-512's two words as one number. -/
theorem toNat_append_64 (hi lo : BitVec 64) : (hi ++ lo).toNat = 2 ^ 64 * hi.toNat + lo.toNat := by
  rw [BitVec.toNat_append, ← Nat.shiftLeft_add_eq_or_of_lt lo.isLt, Nat.shiftLeft_eq, Nat.mul_comm]

/-- The carry comes exactly from a low word of ones. -/
theorem add_one_eq_zero_iff_ones (lo : BitVec 64) : lo + 1 = 0 ↔ lo = 0xFFFFFFFFFFFFFFFF := by
  bv_omega

/-- Counting is addition modulo the width of the counter; SHA-512's carry makes its two words one number. -/
theorem MdRegs.count_byteCount (r : MdRegs) : r.count.byteCount = (r.byteCount + 1) % 2 ^ (8 * r.alg.lenBytes) := by
  cases r with
  | sha1 H n | sha256 H n => exact BitVec.toNat_add n 1
  | sha512 H hi lo =>
    simp only [count, byteCount, alg, MdAlg.lenBytes, toNat_append_64]
    split <;> bv_omega

theorem MdRegs.count_iterate_alg (r : MdRegs) (n : Nat) : (count^[n] r).alg = r.alg := by
  induction n with
  | zero => rfl
  | succ n ih => rw [Function.iterate_succ_apply', count_alg, ih]

/-- The counter after `n` bytes of a new object. -/
theorem MdRegs.count_iterate_byteCount (alg : MdAlg) (n : Nat) :
    (count^[n] (initial alg)).byteCount = n % 2 ^ (8 * alg.lenBytes) := by
  induction n with
  | zero => cases alg <;> rfl
  | succ n ih =>
    have halg : (initial alg).alg = alg := Md.fresh_alg alg
    rw [Function.iterate_succ_apply', count_byteCount, count_iterate_alg, halg, ih, Nat.mod_add_mod]

theorem Md.push_byteCount (e : Md) (b : Byte) : (e.push b).regs.byteCount = e.regs.byteCount := by
  unfold push
  dsimp only
  split
  · exact MdRegs.compress_byteCount _ _
  · rfl

/-! ### The padding (rule R205) -/

/-- The length field leaves room for the byte `0x80` in a block. -/
theorem MdAlg.lenBytes_lt_blockLen (alg : MdAlg) : alg.lenBytes < alg.blockLen := by cases alg <;> decide

theorem MdAlg.blockLen_dvd (alg : MdAlg) : alg.blockLen ∣ 2 ^ (8 * alg.lenBytes) := by cases alg <;> decide

/-- The zeros end where the length field begins. -/
theorem padZeros_spec (alg : MdAlg) (L : Nat) :
    (L + 1 + padZeros alg L) % alg.blockLen = alg.blockLen - alg.lenBytes := by
  cases alg <;> simp only [padZeros, MdAlg.blockLen, MdAlg.lenBytes] <;> omega

/-- Fewer than a block of zeros end there in one way only. -/
theorem padZeros_le {alg : MdAlg} {L k : Nat} (h : (L + 1 + k) % alg.blockLen = alg.blockLen - alg.lenBytes) :
    padZeros alg L ≤ k := by
  revert h
  cases alg <;> simp only [padZeros, MdAlg.blockLen, MdAlg.lenBytes] <;> omega

theorem mdPad_length (alg : MdAlg) (L : Nat) : (mdPad alg L).length = 1 + padZeros alg L + alg.lenBytes := by
  simp only [mdPad, List.length_append, List.length_singleton, zeros_length, beBytes_length]

/-- The padded message is whole blocks. -/
theorem mdPad_fills (alg : MdAlg) (L : Nat) : (L + (mdPad alg L).length) % alg.blockLen = 0 := by
  have hle := alg.lenBytes_lt_blockLen.le
  rw [mdPad_length, ← Nat.add_assoc, ← Nat.add_assoc, ← Nat.mod_add_mod, padZeros_spec, Nat.sub_add_cancel hle,
    Nat.mod_self]

/-- The counter's width is enough: the padding depends on the length modulo that width only (rule R204). -/
theorem mdPad_mod (alg : MdAlg) (L : Nat) : mdPad alg (L % 2 ^ (8 * alg.lenBytes)) = mdPad alg L := by
  rw [mdPad, mdPad, padZeros, padZeros, Nat.mod_mod_of_dvd _ alg.blockLen_dvd, Nat.mul_mod_mod]

/-! ### Compressing and counting -/

/-- Every block compressed in order. -/
def MdRegs.chain (r : MdRegs) (blocks : List Bytes) : MdRegs := blocks.foldl (fun r block => r.compress block) r

theorem MdRegs.chain_concat (r : MdRegs) (blocks : List Bytes) (block : Bytes) :
    r.chain (blocks ++ [block]) = (r.chain blocks).compress block :=
  List.foldl_concat ..

/-- Counting and compressing touch different registers. -/
theorem MdRegs.count_compress (r : MdRegs) (block : Bytes) : (r.compress block).count = r.count.compress block := by
  cases r <;> rfl

@[simp] theorem MdRegs.count_chain (r : MdRegs) (blocks : List Bytes) : (r.chain blocks).count = r.count.chain blocks := by
  induction blocks generalizing r with
  | nil => rfl
  | cons block blocks ih => exact (ih _).trans (congrArg (chain · blocks) (r.count_compress block))

@[simp] theorem MdRegs.chain_alg (r : MdRegs) (blocks : List Bytes) : (r.chain blocks).alg = r.alg := by
  induction blocks generalizing r with
  | nil => rfl
  | cons block blocks ih => exact (ih _).trans (r.compress_alg block)

@[simp] theorem MdRegs.chain_byteCount (r : MdRegs) (blocks : List Bytes) : (r.chain blocks).byteCount = r.byteCount := by
  induction blocks generalizing r with
  | nil => rfl
  | cons block blocks ih => exact (ih _).trans (r.compress_byteCount block)

/-- The counter does not enter a digest. -/
theorem MdRegs.count_digest (r : MdRegs) : r.count.digest = r.digest := by
  cases r <;> rfl

theorem MdRegs.chain_count_iterate_digest (r : MdRegs) (n : Nat) (blocks : List Bytes) :
    ((count^[n] r).chain blocks).digest = (r.chain blocks).digest := by
  induction n with
  | zero => rfl
  | succ n ih => rw [Function.iterate_succ_apply', ← count_chain, count_digest, ih]

/-! ### Pushing and absorbing (rule R203) -/

/-- The object that began with the registers `r` and was pushed `p`: the whole blocks are compressed, the rest is in the
buffer. -/
def Md.pushed (r : MdRegs) (p : Bytes) : Md where
  regs := r.chain (blocksOf r.alg.blockLen p)
  buf := restOf r.alg.blockLen p ++ zeros (r.alg.blockLen - p.length % r.alg.blockLen)
  bufOff := p.length % r.alg.blockLen

theorem Md.pushed_alg (r : MdRegs) (p : Bytes) : (pushed r p).alg = r.alg := r.chain_alg _

theorem Md.pushed_byteCount (r : MdRegs) (p : Bytes) : (pushed r p).regs.byteCount = r.byteCount := r.chain_byteCount _

theorem Md.pushed_nil (alg : MdAlg) : pushed (MdRegs.initial alg) [] = fresh alg := by
  have halg : (MdRegs.initial alg).alg = alg := fresh_alg alg
  simp [pushed, halg, blocksOf, restOf, MdRegs.chain, fresh]

/-- The blocks are compressed one after another, as they fill. -/
theorem Md.push_pushed (r : MdRegs) (p : Bytes) (b : Byte) : (pushed r p).push b = pushed r (p ++ [b]) := by
  have hq := r.alg.blockLen_pos
  have hroom := Nat.mod_lt p.length hq
  have halg := pushed_alg r p
  have hbuf := restOf_zeros_set hq p b
  by_cases hfull : p.length % r.alg.blockLen + 1 = r.alg.blockLen
  · obtain ⟨hblocks, hrest⟩ := blocksOf_append_of_full (t := [b]) hq hfull
    have hmod : (p.length + 1) % r.alg.blockLen = 0 := by rw [← Nat.mod_add_mod, hfull, Nat.mod_self]
    rw [hfull, Nat.sub_self, zeros_zero] at hbuf
    rw [push, halg, if_pos (show (pushed r p).bufOff + 1 = _ from hfull)]
    simp [pushed, hbuf, hblocks, hrest, hmod, MdRegs.chain_concat]
  · obtain ⟨hblocks, hrest⟩ := blocksOf_append_of_room (q := r.alg.blockLen) (s := p) (t := [b])
      (by simp only [List.length_singleton]; omega)
    have hmod : (p.length + 1) % r.alg.blockLen = p.length % r.alg.blockLen + 1 := by
      rw [← Nat.mod_add_mod, Nat.mod_eq_of_lt (by omega)]
    rw [push, halg, if_neg (show ¬(pushed r p).bufOff + 1 = _ from hfull)]
    simp [pushed, hbuf, hblocks, hrest, hmod]

theorem Md.foldl_push_pushed (r : MdRegs) (p s : Bytes) : s.foldl push (pushed r p) = pushed r (p ++ s) := by
  induction s generalizing p with
  | nil => rw [List.foldl_nil, List.append_nil]
  | cons b s ih => rw [List.foldl_cons, push_pushed, ih, List.append_assoc, List.singleton_append]

/-- A counted byte is a pushed byte of an object that began one byte further on. -/
theorem Md.absorbByte_pushed (r : MdRegs) (p : Bytes) (b : Byte) :
    (pushed r p).absorbByte b = pushed r.count (p ++ [b]) := by
  rw [absorbByte, push_pushed]
  simp [pushed]

theorem Md.absorb_pushed (r : MdRegs) (p m : Bytes) :
    (pushed r p).absorb m = pushed (MdRegs.count^[m.length] r) (p ++ m) := by
  induction m generalizing r p with
  | nil => rw [absorb_nil, List.append_nil]; rfl
  | cons b m ih => rw [absorb_cons, absorbByte_pushed, ih, List.append_assoc]; rfl

/-- The object after a message: only the counter tells it from one that was pushed the message. -/
theorem Md.fresh_absorb (alg : MdAlg) (m : Bytes) :
    (fresh alg).absorb m = pushed (MdRegs.count^[m.length] (MdRegs.initial alg)) m := by
  rw [← pushed_nil, absorb_pushed, List.nil_append]

/-- The digest is the chaining value after the message and its padding (rules R205, R206). -/
theorem Md.finish_fresh_absorb (alg : MdAlg) (m : Bytes) : ((fresh alg).absorb m).finish.1 = mdReference alg m := by
  have halg : (MdRegs.count^[m.length] (MdRegs.initial alg)).alg = alg :=
    (MdRegs.count_iterate_alg _ _).trans (fresh_alg alg)
  have hcount := MdRegs.count_iterate_byteCount alg m.length
  rw [fresh_absorb, finish, pushed_alg, pushed_byteCount, halg, hcount, mdPad_mod, foldl_push_pushed, pushed, halg]
  exact MdRegs.chain_count_iterate_digest ..

/-! ### Construction (rules R207 to R209) -/

/-- A construction without checks completes on every context there is (rule R137). -/
theorem construct_unchecked {c : CtxId} {s : State} (h : c.val < s.nctx) (obj : Unit → Obj) :
    construct c s [] obj = .next ((s.holding c (obj ())).succeeds 0) := by
  have hctx : s.ctxAt c = some s.ctx[c.val] := List.getElem?_eq_getElem h
  rw [construct, named_some some _ hctx rfl, checked_nil]
  rfl

end Sys2Proof.Machine
end

section
/-! SUPPORT. The SHA compression functions against the recurrences of 41_md_sha.md rules R210, R211, R220, R221, R230 and
R231: a schedule and a run of the rounds are fixed by their recurrences. -/

namespace Sys2Proof.Machine

/-- Two sequences that begin alike and compute each later word from the words before it by the same rule are the same. -/
theorem eq_of_recurrence {α : Type} {f : (Nat → α) → Nat → α} {k n : Nat} {x y : Nat → α}
    (hf : ∀ t, k ≤ t → (∀ i, i < t → x i = y i) → f x t = f y t) (hinit : ∀ t, t < k → x t = y t)
    (hx : ∀ t, k ≤ t → t < n → x t = f x t) (hy : ∀ t, k ≤ t → t < n → y t = f y t) :
    ∀ t, t < n → x t = y t := by
  intro t
  induction t using Nat.strong_induction_on with
  | _ t ih =>
    intro ht
    by_cases hk : t < k
    · exact hinit t hk
    · have hle : k ≤ t := Nat.le_of_not_lt hk
      rw [hx t hle ht, hy t hle ht, hf t hle fun i hi => ih i hi (hi.trans ht)]

/-- A sequence of states each the step of the one before ends where the fold over the rounds ends. -/
theorem foldl_range_eq {α : Type} {step : α → Nat → α} {v : Nat → α} {n : Nat}
    (hstep : ∀ t, t < n → v (t + 1) = step (v t) t) : (List.range n).foldl step (v 0) = v n := by
  induction n with
  | zero => rfl
  | succ n ih =>
    rw [List.range_succ, List.foldl_concat, ih fun t ht => hstep t (ht.trans n.lt_succ_self), hstep n n.lt_succ_self]

/-! ### SHA-1 -/

/-- The recurrence of rule R210 has one solution, the schedule. -/
theorem eq_sha1Schedule {block : Bytes} {W : Nat → BitVec 32}
    (hinit : ∀ t, t < 16 → W t = BitVec.ofNat 32 (beNat (slice block (4 * t) 4)))
    (hrec : ∀ t, 16 ≤ t → t < 80 → W t = (W (t - 3) ^^^ W (t - 8) ^^^ W (t - 14) ^^^ W (t - 16)).rotateLeft 1) :
    ∀ t, t < 80 → W t = (sha1Schedule block).getD t 0 := by
  obtain ⟨-, hinit', hrec'⟩ := sha1Schedule_spec block
  refine eq_of_recurrence (f := fun W t => (W (t - 3) ^^^ W (t - 8) ^^^ W (t - 14) ^^^ W (t - 16)).rotateLeft 1)
    (fun t ht h => ?_) (fun t ht => (hinit t ht).trans (hinit' t ht).symm) hrec hrec'
  rw [h (t - 3) (by omega), h (t - 8) (by omega), h (t - 14) (by omega), h (t - 16) (by omega)]

/-- The function and the constant of round `t`, one by one (rule R211). -/
theorem sha1Round_eq (t : Nat) (x y z : BitVec 32) : sha1Round t x y z =
    (if t < 20 then chOr x y z else if t < 40 then parity x y z else if t < 60 then majOr x y z else parity x y z,
      if t < 20 then 0x5A827999 else if t < 40 then 0x6ED9EBA1 else if t < 60 then 0x8F1BBCDC else 0xCA62C1D6) := by
  unfold sha1Round
  split_ifs <;> rfl

/-! ### SHA-2 -/

section
variable {w : Nat} (p : Sha2 w) (hlen : 16 ≤ p.K.length) {block : Bytes} {W : Nat → BitVec w}
  (hinit : ∀ t, t < 16 → W t = BitVec.ofNat w (beNat (slice block (w / 8 * t) (w / 8))))
  (hrec : ∀ t, 16 ≤ t → t < p.K.length → W t = p.s1 (W (t - 2)) + W (t - 7) + p.s0 (W (t - 15)) + W (t - 16))
include hlen hinit hrec

/-- The recurrence of rules R220 and R230 has one solution, the schedule. -/
theorem Sha2.eq_schedule : ∀ t, t < p.K.length → W t = (p.schedule block).getD t 0 := by
  obtain ⟨-, hinit', hrec'⟩ := p.schedule_spec hlen block
  refine eq_of_recurrence (f := fun W t => p.s1 (W (t - 2)) + W (t - 7) + p.s0 (W (t - 15)) + W (t - 16))
    (fun t ht h => ?_) (fun t ht => (hinit t ht).trans (hinit' t ht).symm) hrec hrec'
  rw [h (t - 2) (by omega), h (t - 7) (by omega), h (t - 15) (by omega), h (t - 16) (by omega)]

/-- The compression from any schedule and any run of the rounds that meet the recurrences (rules R220, R230). -/
theorem Sha2.compress_eq {v : Nat → Words8 w}
    (hround : ∀ t, t < p.K.length →
      let T1 := (v t).h7 + p.S1 (v t).h4 + chXor (v t).h4 (v t).h5 (v t).h6 + p.K.getD t 0 + W t
      let T2 := p.S0 (v t).h0 + majXor (v t).h0 (v t).h1 (v t).h2
      v (t + 1) = ⟨T1 + T2, (v t).h0, (v t).h1, (v t).h2, (v t).h3 + T1, (v t).h4, (v t).h5, (v t).h6⟩) :
    p.compress (v 0) block = (v 0).add (v p.K.length) := by
  have hstep : ∀ t, t < p.K.length → v (t + 1) = p.step (p.schedule block) (v t) t := by
    intro t ht
    rw [step, ← p.eq_schedule hlen hinit hrec t ht]
    exact hround t ht
  rw [compress, foldl_range_eq hstep]

end

end Sys2Proof.Machine
end

section
open Sys2Proof Sys2Proof.Machine

/-- Settles O29: the engine is at every moment what the bytes pushed so far make it, and counting changes no digest. -/
theorem mdEngineComputesThePaddedHash : Obligations.MdEngineComputesThePaddedHash := by
  unfold Obligations.MdEngineComputesThePaddedHash
  exact Md.finish_fresh_absorb

/-- Settles O30: `k` is the model's own number of zeros. -/
theorem mdPadding : Obligations.MdPadding := by
  unfold Obligations.MdPadding
  exact fun alg L => ⟨padZeros alg L, rfl, padZeros_spec alg L, fun _ => padZeros_le, mdPad_fills alg L⟩

/-- Settles O32: the schedule is the only solution of its recurrence, so each round is a step of the fold. -/
theorem sha1Compression : Obligations.Sha1Compression := by
  unfold Obligations.Sha1Compression
  rintro H block W v hinit hrec rfl hround
  have hstep : ∀ t, t < 80 → v (t + 1) = sha1Step (sha1Schedule block) (v t) t := by
    intro t ht
    rw [sha1Step, sha1Round_eq, ← eq_sha1Schedule hinit hrec t ht]
    exact hround t ht
  unfold compressSha1
  rw [foldl_range_eq hstep]
  rfl

/-- Settles O33: both are the compression of rules R220 and R230 with their own functions and constants. -/
theorem sha2Compression : Obligations.Sha2Compression := by
  unfold Obligations.Sha2Compression
  constructor
  · rintro H block W v hinit hrec rfl hround
    exact Sha2.compress_eq sha256Fns (by decide) hinit hrec hround
  · rintro H block W v hinit hrec rfl hround
    exact Sha2.compress_eq sha512Fns (by decide) hinit hrec hround

/-- Settles O31: absorbing is pushing, which leaves the counter alone, and counting. -/
theorem mdByteCounter : Obligations.MdByteCounter := by
  unfold Obligations.MdByteCounter
  refine ⟨fun e b => ?_, Md.push_byteCount, fun H hi lo => by simp only [MdRegs.count, add_one_eq_zero_iff_ones]⟩
  have halg : (e.push b).regs.alg = e.alg := e.push_alg b
  rw [Md.absorbByte, MdRegs.count_byteCount, halg, Md.push_byteCount]

/-- Settles O47: the three commands construct the fresh object of their algorithm, without checks. -/
theorem newMd : Obligations.NewMd := by
  unfold Obligations.NewMd
  exact fun c s h => ⟨construct_unchecked h fun _ => .hash (.md (Md.fresh .sha1)),
    construct_unchecked h fun _ => .hash (.md (Md.fresh .sha256)),
    construct_unchecked h fun _ => .hash (.md (Md.fresh .sha512))⟩

end

section
/-! SUPPORT. The step mappings of Keccak-f lane by lane: 42_sponge_keccak.md rules R257 to R259. -/

namespace Sys2Proof.Machine

/-- Lane indices are modulo 5 (rule R257). -/
@[simp] theorem lane_mod (A : Lanes) (x y : Nat) : lane A (x % 5) (y % 5) = lane A x y := by
  simp [lane]

@[simp] theorem lane_mod_left (A : Lanes) (x y : Nat) : lane A (x % 5) y = lane A x y := by
  simp [lane]

section
variable (A : Lanes)

theorem columnParity_getD (x : Nat) : (columnParity A).getD (x % 5) 0 =
    lane A x 0 ^^^ lane A x 1 ^^^ lane A x 2 ^^^ lane A x 3 ^^^ lane A x 4 := by
  have hx : x % 5 < 5 := Nat.mod_lt x (by decide)
  simp [columnParity, Vector.getD, Array.getD, hx]

theorem thetaD_getD (C : Vector Lane 5) (x : Nat) : (thetaD C).getD (x % 5) 0 =
    C.getD ((x + 4) % 5) 0 ^^^ (C.getD ((x + 1) % 5) 0).rotateLeft 1 := by
  have hx : x % 5 < 5 := Nat.mod_lt x (by decide)
  simp [thetaD, rotl, Vector.getD, Array.getD, hx]

/-- Each lane takes in the parities of the columns on both sides. -/
theorem lane_theta (x y : Nat) : lane (theta A) x y = lane A x y ^^^
    ((columnParity A).getD ((x + 4) % 5) 0 ^^^ ((columnParity A).getD ((x + 1) % 5) 0).rotateLeft 1) := by
  rw [theta, lane_lanesOf, lane_mod, thetaD_getD]

/-- The lane of `(x, y)` goes to `(y, 2x + 3y)`: the model names the source of each lane, `(X + 3Y, X)`, which modulo 5 is
the inverse map. -/
theorem lane_rhoPi (x y : Fin 5) :
    lane (rhoPi A) y ((2 * x + 3 * y) % 5) = (lane A x y).rotateLeft (rhoOffset x y) := by
  have hy : (y : Nat) % 5 = y := Nat.mod_eq_of_lt y.isLt
  have hx : ((y : Nat) % 5 + 3 * ((2 * x + 3 * y) % 5 % 5)) % 5 = x := by omega
  rw [rhoPi, lane_lanesOf, rotl, ← lane_mod_left, hx, hy]

theorem lane_chi (x y : Nat) :
    lane (chi A) x y = lane A x y ^^^ (~~~lane A (x + 1) y &&& lane A (x + 2) y) := by
  rw [chi, lane_lanesOf]
  simp [lane]

/-- Only lane `(0, 0)` changes. -/
theorem lane_iota (rc : Lane) (x y : Nat) :
    lane (iota rc A) x y = if x % 5 = 0 ∧ y % 5 = 0 then lane A 0 0 ^^^ rc else lane A x y := by
  have hindex : x % 5 + 5 * (y % 5) < 25 := by omega
  have hzero : 0 = x % 5 + 5 * (y % 5) ↔ x % 5 = 0 ∧ y % 5 = 0 := by omega
  simp [iota, lane, Vector.getD, Array.getD, Array.getElem_setIfInBounds, hindex, hzero]

theorem keccakF_eq : keccakF A = roundConstants.foldl (fun A rc => iota rc (chi (rhoPi (theta A)))) A := by
  unfold keccakF
  rfl

end

/-- The table of offsets is the walk's (rule R258). -/
theorem rhoOffset_walk : ∀ t < 24,
    let p := Nat.iterate (fun p : Nat × Nat => (p.2, (2 * p.1 + 3 * p.2) % 5)) t (1, 0)
    rhoOffset p.1 p.2 = (t + 1) * (t + 2) / 2 % 64 := by
  decide

end Sys2Proof.Machine
end

section
/-! SUPPORT. CSHAKE's string encodings, the fresh sponge and its construction: 42_sponge_keccak.md rules R254, R266, R267
and R270 to R272. -/

namespace Sys2Proof.Machine

/-! ### The string encodings (rule R266) -/

theorem beNat_concat (s : Bytes) (b : Byte) : beNat (s ++ [b]) = 256 * beNat s + b.toNat := List.foldl_concat ..

/-- The last byte is the least significant one. -/
theorem beBytes_succ (n v : Nat) : beBytes (n + 1) v = beBytes n (v / 256) ++ [BitVec.ofNat 8 v] := by
  have hbyte : ∀ i < n, v / 256 ^ (n - i) = v / 256 / 256 ^ (n - 1 - i) := by
    intro i hi
    rw [Nat.div_div_eq_div_mul, ← Nat.pow_succ', show (n - 1 - i).succ = n - i by omega]
  rw [beBytes, List.range_succ, List.map_append]
  congr 1
  · exact List.map_congr_left fun i hi => by rw [Nat.add_sub_cancel, hbyte i (List.mem_range.1 hi)]
  · simp

theorem beNat_beBytes {n v : Nat} (h : v < 2 ^ (8 * n)) : beNat (beBytes n v) = v := by
  induction n generalizing v with
  | zero => exact (Nat.lt_one_iff.1 h).symm
  | succ n ih =>
    have hv : v / 256 < 2 ^ (8 * n) := by
      rw [Nat.div_lt_iff_lt_mul (by decide)]
      rwa [Nat.mul_succ, Nat.pow_add] at h
    rw [beBytes_succ, beNat_concat, ih hv, BitVec.toNat_ofNat]
    exact Nat.div_add_mod v 256

theorem log2_lt_iff {k : Nat} (hk : 0 < k) (x : Nat) : Nat.log2 x < k ↔ x < 2 ^ k := by
  rcases Nat.eq_zero_or_pos x with rfl | hx
  · simp [hk]
  · exact Nat.log2_lt hx.ne'

/-- The number of bytes is the least that holds the integer. -/
theorem leftEncode_of_least {x n : Nat} (hn : 1 ≤ n) (hx : x < 2 ^ (8 * n))
    (hleast : ∀ n', 1 ≤ n' → x < 2 ^ (8 * n') → n ≤ n') : leftEncode x = BitVec.ofNat 8 n :: beBytes n x := by
  have hlog : Nat.log2 x < 8 * n := (log2_lt_iff (by omega) x).2 hx
  have hle : n ≤ Nat.log2 x / 8 + 1 := hleast _ (by omega) ((log2_lt_iff (by omega) x).1 (by omega))
  have hlength : Nat.log2 x / 8 + 1 = n := by omega
  rw [leftEncode, hlength]

/-- The padding of `bytepad` ends a block of `w` bytes. -/
theorem bytepad_length_mod (X : Bytes) {w : Nat} (hw : 0 < w) : (bytepad X w).length % w = 0 := by
  rw [bytepad, List.length_append, zeros_length, Nat.add_mod_mod]
  generalize (leftEncode w ++ X).length = L
  have hlt : L % w < w := Nat.mod_lt L hw
  have hblocks : L + (w - L % w) = w * (L / w + 1) := by
    have hsplit := Nat.mod_add_div L w
    rw [Nat.mul_succ]
    omega
  rw [hblocks, Nat.mul_mod_right]

/-! ### The fresh sponge (rules R254, R267) -/

theorem SpongeCfg.prefixBytes_of_not_customised {cfg : SpongeCfg} (h : cfg.customised = false) :
    cfg.prefixBytes = [] := by
  cases cfg with
  | sha3 b => rfl
  | shake b => rfl
  | cshake b N S => rw [prefixBytes, if_neg (by simp [h])]

theorem SpongeCfg.prefixBytes_of_customised {b : XofBits} {N S : Bytes} (h : N ≠ [] ∨ S ≠ []) :
    (cshake b N S).prefixBytes = bytepad (encodeString N ++ encodeString S) (cshake b N S).rateBytes := by
  rw [prefixBytes, if_pos]
  simpa [customised, -not_and, not_and_or] using h

theorem SpongeCfg.cshake_rateBytes (b : XofBits) (N S : Bytes) :
    (cshake b N S).rateBytes = if b = .b128 then 168 else 136 := by
  cases b <;> simp [rateBytes, rate, rateOf, bits, XofBits.val]

/-- The opening bytes of CSHAKE are whole blocks. -/
theorem SpongeCfg.prefixBytes_length_mod (cfg : SpongeCfg) : cfg.prefixBytes.length % cfg.rateBytes = 0 := by
  cases cfg with
  | sha3 b => exact Nat.zero_mod _
  | shake b => exact Nat.zero_mod _
  | cshake b N S =>
    rw [prefixBytes]
    split
    · exact bytepad_length_mod _ (rateBytes_pos _)
    · exact Nat.zero_mod _

theorem Sponge.fresh_eq_absorbed (cfg : SpongeCfg) : Sponge.fresh cfg = absorbed cfg cfg.prefixBytes := by
  simpa using fresh_absorb cfg []

theorem Sponge.absorbed_queue_of_blocks {cfg : SpongeCfg} {p : Bytes} (h : p.length % cfg.rateBytes = 0) :
    (absorbed cfg p).queue = zeros cfg.rateBytes ∧ (absorbed cfg p).bitsInQueue = 0 := by
  have hrest : restOf cfg.rateBytes p = [] := List.length_eq_zero_iff.1 (by rw [restOf_length, h])
  simp [absorbed, h, hrest]

/-- The output stream depends on the configuration through the rate, the suffix and the opening bytes alone. -/
theorem spongeStream_congr {cfg cfg' : SpongeCfg} (hrate : cfg.rate = cfg'.rate) (hsuffix : cfg.suffix = cfg'.suffix)
    (hprefix : cfg.prefixBytes = cfg'.prefixBytes) (m : Bytes) : spongeStream cfg m = spongeStream cfg' m := by
  have hbytes : cfg.rateBytes = cfg'.rateBytes := congrArg (· / 8) hrate
  have hstate : spongeOutputState cfg m = spongeOutputState cfg' m := by
    funext k
    induction k with
    | zero => simp only [spongeOutputState, spongeAbsorbed, spongePad, hrate, hbytes, hsuffix, hprefix]
    | succ k ih => rw [spongeOutputState, spongeOutputState, ih]
  funext k
  rw [spongeStream, spongeStream, hstate, hrate, hbytes]

theorem xofOf_congr {cfg cfg' : SpongeCfg} (hrate : cfg.rate = cfg'.rate) (hsuffix : cfg.suffix = cfg'.suffix)
    (hprefix : cfg.prefixBytes = cfg'.prefixBytes) (m : Bytes) (n : Nat) : xofOf cfg m n = xofOf cfg' m n := by
  rw [xofOf_eq_spongeSegment, xofOf_eq_spongeSegment, spongeSegment, spongeSegment,
    spongeStream_congr hrate hsuffix hprefix]

/-! ### Construction (rules R270 to R272) -/

/-- A construction with no cause of an error passed its checks, and its context holds the new object (rule R137). -/
theorem construct_completes {i : Instr} {s : State} {c : CtxId} {checks : List Check} {obj : Unit → Obj}
    (hcode : errorCode i s = 0) (hexec : exec i s = construct c s checks obj) :
    (∀ t ∈ checks, t.1 = false) ∧ exec i s = .next ((s.holding c (obj ())).succeeds 0) := by
  obtain ⟨s', r, hv, ht⟩ := exec_verdict hexec hcode
  obtain ⟨x, a, -, -, hchecked⟩ := named_ok hv
  obtain ⟨hpass, heffect⟩ := checked_ok hchecked
  obtain ⟨rfl, rfl⟩ := Verdict.ok.inj heffect
  exact ⟨hpass, ht⟩

/-- The first check being that the parameter names an entry of a table, there is that entry. -/
theorem construct_completes_of_table {i : Instr} {s : State} {c : CtxId} {β : Type} {entry : Option β}
    {checks : List Check} {obj : Unit → Obj} (hcode : errorCode i s = 0)
    (hexec : exec i s = construct c s ((entry.isNone, .invalidParameter) :: checks) obj) :
    ∃ b, entry = some b ∧ exec i s = .next ((s.holding c (obj ())).succeeds 0) := by
  obtain ⟨hpass, ht⟩ := construct_completes hcode hexec
  obtain ⟨b, hb⟩ := Option.isSome_iff_exists.1 (Option.isNone_eq_false_iff.1 (hpass _ List.mem_cons_self))
  exact ⟨b, hb, ht⟩

theorem sha3Bits_eq_some {n : Int} {b : Sha3Bits} (h : sha3Bits n = some b) : n = b.val := by
  unfold sha3Bits at h
  split_ifs at h <;> cases h <;> assumption

theorem xofBits_eq_some {n : Int} {b : XofBits} (h : xofBits n = some b) : n = b.val := by
  unfold xofBits at h
  split_ifs at h <;> cases h <;> assumption

theorem State.wholeIf_getD (s : State) (present : Bool) (X : Buffer) :
    (s.wholeIf present X).getD [] = if present then s.mem.readBytes X.base X.size else [] := by
  cases present <;> rfl

end Sys2Proof.Machine
end

section
open Sys2Proof Sys2Proof.Machine

/-- Settles O34: each mapping is read off lane by lane, and the offsets are compared along the walk. -/
theorem keccakStepMappings : Obligations.KeccakStepMappings := by
  unfold Obligations.KeccakStepMappings
  refine ⟨fun A => ⟨rfl, keccakF_eq A⟩, fun A rc x y => ⟨?_, lane_rhoPi A x y, ?_, ?_⟩, rfl, rhoOffset_walk⟩
  · rw [lane_theta, columnParity_getD, columnParity_getD]
    simp only [lane_mod_left]
  · rw [lane_chi, lane_mod_left, lane_mod_left]
  · rw [lane_iota, Nat.mod_eq_of_lt x.isLt, Nat.mod_eq_of_lt y.isLt]
    simp only [Fin.val_eq_zero_iff]

/-- Settles O37: the model's number of bytes is the least one, and `j` is what is left of the last block. -/
theorem stringEncodings : Obligations.StringEncodings := by
  unfold Obligations.StringEncodings
  exact ⟨fun x n hn hx hleast => ⟨leftEncode_of_least hn hx hleast, beNat_beBytes hx⟩, fun _ => rfl,
    fun X w hw => ⟨_, rfl, Nat.mod_lt _ hw, bytepad_length_mod X hw⟩⟩

/-- Settles O36: a fresh sponge is the zero state with the opening bytes absorbed, and these are whole blocks. -/
theorem freshSponge : Obligations.FreshSponge := by
  unfold Obligations.FreshSponge
  refine ⟨fun cfg => ?_, fun b N S h => ?_, fun b m n =>
    xofOf_congr (cfg := .cshake b [] []) (cfg' := .shake b) rfl rfl rfl m n⟩
  · obtain ⟨hqueue, hbits⟩ := Sponge.absorbed_queue_of_blocks cfg.prefixBytes_length_mod
    refine ⟨Sponge.fresh_cfg cfg, ?_, ?_, Sponge.fresh_squeezing cfg, fun h => ?_⟩
    · rw [Sponge.fresh_eq_absorbed, hqueue]
    · rw [Sponge.fresh_eq_absorbed, hbits]
    · rw [Sponge.fresh, SpongeCfg.prefixBytes_of_not_customised h]
      rfl
  · rw [SpongeCfg.prefixBytes_of_customised h, SpongeCfg.cshake_rateBytes]

/-- Settles O48: the checks leave a bit length of the table, and the object is the one of that length. -/
theorem newSponge : Obligations.NewSponge := by
  unfold Obligations.NewSponge
  refine ⟨fun c s h => ?_, fun c s h => ?_, fun c namep auxp s h => ?_⟩
  · obtain ⟨b, hb, ht⟩ := construct_completes_of_table h (show _ = execNewSha3 c s from rfl)
    rw [hb] at ht
    exact ⟨b, sha3Bits_eq_some hb, ht⟩
  · obtain ⟨b, hb, ht⟩ := construct_completes_of_table h (show _ = execNewShake c s from rfl)
    rw [hb] at ht
    exact ⟨b, xofBits_eq_some hb, ht⟩
  · obtain ⟨b, hb, ht⟩ := construct_completes_of_table h (show _ = execNewCshake c namep auxp s from rfl)
    rw [hb, State.wholeIf_getD, State.wholeIf_getD] at ht
    exact ⟨b, xofBits_eq_some hb, ht⟩

end

section
/-! SUPPORT. The BLAKE2b engine in closed form: its byte counter, and what its object is after a byte string has been
absorbed, in terms of the blocks of 43_blake2b.md rules R302, R303 and R309. -/

namespace Sys2Proof.Machine

/-! ### The byte counter (rule R302) -/

/-- The two counter words of `T` bytes are one number modulo `2^128`. -/
theorem ofNat_64_append (T : Nat) : BitVec.ofNat 64 (T / 2 ^ 64) ++ BitVec.ofNat 64 T = BitVec.ofNat 128 T := by
  refine BitVec.eq_of_toNat_eq ?_
  rw [toNat_append_64]
  simp only [BitVec.toNat_ofNat]
  omega

theorem extractLsb'_ofNat_128 (T : Nat) : (BitVec.ofNat 128 T).extractLsb' 64 64 = BitVec.ofNat 64 (T / 2 ^ 64) ∧
    (BitVec.ofNat 128 T).extractLsb' 0 64 = BitVec.ofNat 64 T := by
  rw [← ofNat_64_append]
  exact ⟨BitVec.extractLsb'_append_eq_left, BitVec.extractLsb'_append_eq_right⟩

/-- The counter words go on from those of `T` bytes to those of `T + n`, carry and wrap included. -/
theorem Blake.advance_of_count {e : Blake} {T : Nat} (h1 : e.t1 = BitVec.ofNat 64 (T / 2 ^ 64))
    (h0 : e.t0 = BitVec.ofNat 64 T) (n : Nat) :
    e.advance n = { e with t1 := BitVec.ofNat 64 ((T + n) / 2 ^ 64), t0 := BitVec.ofNat 64 (T + n) } := by
  obtain ⟨hhi, hlo⟩ := extractLsb'_ofNat_128 (T + n)
  rw [advance, h1, h0, ofNat_64_append, ← BitVec.ofNat_add, hhi, hlo]

/-! ### Absorbing (rules R303, R309) -/

/-- The chaining value after the first `n` blocks of `p`, none of them the last. -/
def blakeChain (cfg : BlakeCfg) (p : Bytes) (n : Nat) : Words8 64 :=
  (List.range n).foldl (fun h i => blakeBlock h (slice p (128 * i) 128) (128 * (i + 1)) false) cfg.initial

theorem blakeChain_succ (cfg : BlakeCfg) (p : Bytes) (n : Nat) : blakeChain cfg p (n + 1) =
    blakeBlock (blakeChain cfg p n) (slice p (128 * n) 128) (128 * (n + 1)) false := by
  rw [blakeChain, List.range_succ, List.foldl_concat, blakeChain]

theorem blakeChain_append (cfg : BlakeCfg) {p : Bytes} {n : Nat} (h : 128 * n ≤ p.length) (t : Bytes) :
    blakeChain cfg (p ++ t) n = blakeChain cfg p n := by
  induction n with
  | zero => simp [blakeChain]
  | succ n ih => rw [blakeChain_succ, blakeChain_succ, ih (by omega), slice_append_of_le (by omega)]

/-- The object that has absorbed `p`, key block included, and compressed its first `n` blocks: the rest is in the
buffer. -/
def Blake.absorbed (cfg : BlakeCfg) (p : Bytes) (n : Nat) : Blake where
  cfg := cfg
  h := blakeChain cfg p n
  t1 := BitVec.ofNat 64 (128 * n / 2 ^ 64)
  t0 := BitVec.ofNat 64 (128 * n)
  buf := p.drop (128 * n) ++ zeros (128 - (p.drop (128 * n)).length)
  pos := (p.drop (128 * n)).length

theorem Blake.advance_absorbed (cfg : BlakeCfg) (p : Bytes) (n k : Nat) : (absorbed cfg p n).advance k =
    { absorbed cfg p n with
      t1 := BitVec.ofNat 64 ((128 * n + k) / 2 ^ 64), t0 := BitVec.ofNat 64 (128 * n + k) } :=
  advance_of_count rfl rfl k

/-- A full buffer is compressed as one block more (rule R303). -/
theorem Blake.flush_absorbed_full (cfg : BlakeCfg) {p : Bytes} {n : Nat} (h : p.length = 128 * (n + 1)) :
    (absorbed cfg p n).flush = absorbed cfg p (n + 1) := by
  have hrest : (p.drop (128 * n)).length = 128 := by rw [List.length_drop]; omega
  have hblock : slice p (128 * n) 128 = p.drop (128 * n) := List.take_of_length_le hrest.le
  have hempty : p.drop (128 * n + 128) = [] := List.drop_eq_nil_of_le h.le
  rw [flush, if_pos (show (absorbed cfg p n).pos = blakeBlockLen from hrest), advance_absorbed]
  simp [absorbed, blakeChain_succ, blakeBlock, hblock, hrest, hempty, blakeBlockLen, Nat.mul_succ, -List.length_drop]

/-- A buffer with room is left as it is (rule R303). -/
theorem Blake.flush_absorbed_of_room (cfg : BlakeCfg) {p : Bytes} {n : Nat} (h : p.length < 128 * (n + 1)) :
    (absorbed cfg p n).flush = absorbed cfg p n := by
  have hrest : (p.drop (128 * n)).length ≠ 128 := by rw [List.length_drop]; omega
  rw [flush, if_neg (show ¬(absorbed cfg p n).pos = blakeBlockLen from hrest)]

/-- All blocks but the last are compressed before a byte arrives, all whole blocks when it does (rule R303). -/
theorem Blake.flush_absorbed (cfg : BlakeCfg) (p : Bytes) :
    (absorbed cfg p ((p.length - 1) / 128)).flush = absorbed cfg p (p.length / 128) := by
  by_cases hfull : p.length = 128 * ((p.length - 1) / 128 + 1)
  · rw [flush_absorbed_full cfg hfull, show (p.length - 1) / 128 + 1 = p.length / 128 by omega]
  · rw [flush_absorbed_of_room cfg (by omega), show (p.length - 1) / 128 = p.length / 128 by omega]

/-- A byte arriving at a buffer with room is stored behind the rest (rule R303). -/
theorem Blake.absorbed_concat (cfg : BlakeCfg) {p : Bytes} {n : Nat} (hn : 128 * n ≤ p.length)
    (hroom : p.length < 128 * (n + 1)) (b : Byte) : absorbed cfg (p ++ [b]) n =
    { absorbed cfg p n with
      buf := (absorbed cfg p n).buf.set (absorbed cfg p n).pos b, pos := (absorbed cfg p n).pos + 1 } := by
  have hfree : 128 - (p.drop (128 * n)).length = 128 - ((p.drop (128 * n)).length + 1) + 1 := by
    rw [List.length_drop]; omega
  simp only [absorbed, blakeChain_append cfg hn, List.drop_append_of_le_length hn, List.length_append,
    List.length_singleton]
  rw [hfree, zeros_succ, set_length_append, List.append_assoc, List.singleton_append]

theorem Blake.absorbByte_absorbed (cfg : BlakeCfg) (p : Bytes) (b : Byte) :
    (absorbed cfg p ((p.length - 1) / 128)).absorbByte b =
      absorbed cfg (p ++ [b]) (((p ++ [b]).length - 1) / 128) := by
  rw [absorbByte, flush_absorbed, List.length_append, List.length_singleton, Nat.add_sub_cancel,
    absorbed_concat cfg (by omega) (by omega)]

theorem Blake.absorb_absorbed (cfg : BlakeCfg) (p m : Bytes) :
    (absorbed cfg p ((p.length - 1) / 128)).absorb m = absorbed cfg (p ++ m) (((p ++ m).length - 1) / 128) := by
  induction m generalizing p with
  | nil => rw [absorb_nil, List.append_nil]
  | cons b m ih => rw [absorb_cons, absorbByte_absorbed, ih, List.append_assoc, List.singleton_append]

/-! ### The fresh object and its session (rules R301, R305, R309) -/

theorem blakeInput_eq_append (cfg : BlakeCfg) (m : Bytes) : blakeInput cfg m = blakeInput cfg [] ++ m := by
  rw [blakeInput, blakeInput, List.append_nil]

/-- The key is at most one block, which waits in the buffer. -/
theorem Blake.fresh_eq_absorbed {cfg : BlakeCfg} (h : cfg.key.length ≤ 64) :
    fresh cfg = absorbed cfg (blakeInput cfg []) (((blakeInput cfg []).length - 1) / 128) := by
  by_cases hkey : 0 < cfg.key.length
  · have hlength : cfg.key.length + (128 - cfg.key.length) = 128 := by omega
    simp [fresh, absorbed, blakeInput, blakeChain, blakeBlockLen, hkey, hlength]
  · have hnil : cfg.key = [] := List.eq_nil_of_length_eq_zero (by omega)
    simp [fresh, absorbed, blakeInput, blakeChain, blakeBlockLen, hnil]

/-- A session's object is fixed by the key block and the message (rules R132, R309). -/
theorem Blake.fresh_absorb {cfg : BlakeCfg} (h : cfg.key.length ≤ 64) (m : Bytes) :
    (fresh cfg).absorb m = absorbed cfg (blakeInput cfg m) (((blakeInput cfg m).length - 1) / 128) := by
  rw [fresh_eq_absorbed h, absorb_absorbed, ← blakeInput_eq_append]

/-- The last block is compressed, flagged, with the counter at the length of the whole string (rule R305). -/
theorem Blake.finish_absorbed (cfg : BlakeCfg) {p : Bytes} {n : Nat} (hn : 128 * n ≤ p.length) :
    (absorbed cfg p n).finish.1 = (blakeOutput (blakeBlock (blakeChain cfg p n)
      (p.drop (128 * n) ++ zeros (128 - (p.drop (128 * n)).length)) p.length true)).take cfg.dlen := by
  have hcount : 128 * n + (absorbed cfg p n).pos = p.length := by
    simp only [absorbed, List.length_drop]; omega
  rw [finish, advance_absorbed, hcount]
  rfl

theorem Blake.finish_fresh_absorb {cfg : BlakeCfg} (h : cfg.key.length ≤ 64) (m : Bytes) :
    ((fresh cfg).absorb m).finish.1 = blakeReference cfg m := by
  rw [fresh_absorb h, finish_absorbed cfg (by omega)]
  rfl

end Sys2Proof.Machine
end

section
/-! SUPPORT. The fresh BLAKE2b object's chaining value and buffer, the mixing function word by word, and the construction:
43_blake2b.md rules R301, R306, R308 to R310. -/

namespace Sys2Proof.Machine

/-! ### The fresh object (rules R301, R309) -/

/-- The fields of the parameter word do not overlap. -/
theorem blakeParameterWord {kk nn : Nat} (hkk : kk ≤ 64) (hnn : nn ≤ 64) :
    ((0x01010000 : Lane) ||| BitVec.ofNat 64 kk <<< 8 ||| BitVec.ofNat 64 nn) =
      BitVec.ofNat 64 (0x01010000 + 256 * kk + nn) := by
  have hkey : 0x0101 <<< 16 + kk <<< 8 = 0x0101 <<< 16 ||| kk <<< 8 :=
    Nat.shiftLeft_add_eq_or_of_lt (by rw [Nat.shiftLeft_eq]; omega) _
  have hword : (0x010100 + kk) <<< 8 + nn = (0x010100 + kk) <<< 8 ||| nn :=
    Nat.shiftLeft_add_eq_or_of_lt (by omega) _
  have hshift : BitVec.ofNat 64 (kk <<< 8) = BitVec.ofNat 64 kk <<< 8 :=
    BitVec.eq_of_toNat_eq (by simp [Nat.shiftLeft_eq])
  have hsum : 0x01010000 + 256 * kk + nn = 0x0101 <<< 16 ||| kk <<< 8 ||| nn := by
    rw [← hkey, show 0x0101 <<< 16 + kk <<< 8 = (0x010100 + kk) <<< 8 by omega, ← hword]
    omega
  rw [hsum, BitVec.ofNat_or, BitVec.ofNat_or, hshift]
  rfl

/-- A 16-byte string is two lanes (rules R77, R301). -/
theorem leLane_of_length_16 {x : Bytes} (h : x.length = 16) :
    leLane x 0 = BitVec.ofNat 64 (leNat (x.take 8)) ∧ leLane x 1 = BitVec.ofNat 64 (leNat (x.drop 8)) := by
  have hrest : slice x 8 8 = x.drop 8 := List.take_of_length_le (by rw [List.length_drop]; omega)
  exact ⟨rfl, by rw [leLane, Nat.mul_one, hrest]⟩

/-- An operand that is absent or 16 bytes long is 16 bytes long, zeros standing in for it. -/
theorem getD_zeros_length {x : Option Bytes} (h : ∀ y, x = some y → y.length = 16) :
    (x.getD (zeros 16)).length = 16 := by
  cases x with
  | none => exact zeros_length 16
  | some y => exact h y rfl

theorem Blake.fresh_unkeyed {cfg : BlakeCfg} (h : cfg.key = []) :
    (fresh cfg).pos = 0 ∧ (fresh cfg).buf = zeros 128 := by
  rw [fresh, h]
  exact ⟨rfl, rfl⟩

theorem Blake.fresh_keyed {cfg : BlakeCfg} (h : cfg.key ≠ []) :
    (fresh cfg).pos = 128 ∧ (fresh cfg).buf = cfg.key ++ zeros (128 - cfg.key.length) :=
  ⟨if_pos (List.length_pos_iff.2 h), rfl⟩

/-! ### The mixing function (rule R306) -/

theorem getD_set {v : List Lane} {i : Nat} (h : i < v.length) (x : Lane) (j : Nat) :
    (v.set i x).getD j 0 = if i = j then x else v.getD j 0 := by
  rw [List.getD_eq_getElem?_getD, List.getD_eq_getElem?_getD, List.getElem?_set, if_pos h]
  split <;> rfl

/-- Four words written at four different places of the work vector are each read back, and no other word changes. -/
theorem getD_set_four {v : List Lane} (hv : v.length = 16) {a b c d : Fin 16} (h : [a, b, c, d].Nodup)
    (xa xb xc xd : Lane) :
    let w := (((v.set a xa).set b xb).set c xc).set d xd
    w.getD a 0 = xa ∧ w.getD d 0 = xd ∧ w.getD c 0 = xc ∧ w.getD b 0 = xb ∧
      ∀ i : Fin 16, i ∉ [a, b, c, d] → w.getD i 0 = v.getD i 0 := by
  intro w
  have hread (i : Fin 16) : w.getD i 0 =
      if d = i then xd else if c = i then xc else if b = i then xb else if a = i then xa else v.getD i 0 := by
    simp only [w, getD_set, List.length_set, hv, Fin.is_lt, Fin.val_inj]
  obtain ⟨⟨hab, hac, had⟩, ⟨hbc, hbd⟩, hcd⟩ : (a ≠ b ∧ a ≠ c ∧ a ≠ d) ∧ (b ≠ c ∧ b ≠ d) ∧ c ≠ d := by
    simpa using h
  refine ⟨?_, ?_, ?_, ?_, fun i hi => ?_⟩
  · rw [hread, if_neg had.symm, if_neg hac.symm, if_neg hab.symm, if_pos rfl]
  · rw [hread, if_pos rfl]
  · rw [hread, if_neg hcd.symm, if_pos rfl]
  · rw [hread, if_neg hbd.symm, if_neg hbc.symm, if_pos rfl]
  · obtain ⟨ha, hb, hc, hd⟩ : i ≠ a ∧ i ≠ b ∧ i ≠ c ∧ i ≠ d := by simpa using hi
    rw [hread, if_neg hd.symm, if_neg hc.symm, if_neg hb.symm, if_neg ha.symm]

/-! ### Construction (rule R310) -/

/-- A positive sign-extended register is its unsigned value (rule R27). -/
theorem toNat_toInt_of_pos {p : Word} (h : 0 < p.toInt) : p.toInt.toNat = p.toNat := by
  rw [BitVec.toInt_eq_toNat_cond] at h ⊢
  split at h <;> omega

end Sys2Proof.Machine
end

section
open Sys2Proof Sys2Proof.Machine

/-- Settles O40: the engine is at every moment what the bytes absorbed so far make it, one block behind. -/
theorem blakeEngineComputesBlake2b : Obligations.BlakeEngineComputesBlake2b := by
  unfold Obligations.BlakeEngineComputesBlake2b
  exact fun cfg m h => Blake.finish_fresh_absorb h m

/-- Settles O38: the parameter word is a sum, and salt and personalization are 16 bytes whether given or not. -/
theorem freshBlake : Obligations.FreshBlake := by
  unfold Obligations.FreshBlake
  intro cfg hcfg
  obtain ⟨hsalt0, hsalt1⟩ := leLane_of_length_16 (getD_zeros_length hcfg.salt)
  obtain ⟨hpers0, hpers1⟩ := leLane_of_length_16 (getD_zeros_length hcfg.pers)
  have hword := blakeParameterWord hcfg.key hcfg.dlen.2
  exact ⟨rfl, rfl, rfl, congrArg (ivSha512.h0 ^^^ ·) hword, rfl, rfl, rfl, congrArg (ivSha512.h4 ^^^ ·) hsalt0,
    congrArg (ivSha512.h5 ^^^ ·) hsalt1, congrArg (ivSha512.h6 ^^^ ·) hpers0, congrArg (ivSha512.h7 ^^^ ·) hpers1,
    Blake.fresh_unkeyed, Blake.fresh_keyed⟩

/-- Settles O39: the words written are four different ones, so each is read back as it was written. -/
theorem blakeMixing : Obligations.BlakeMixing := by
  unfold Obligations.BlakeMixing
  exact fun v a b c d x y hv hnodup => ⟨by simp [blakeG, hv], getD_set_four hv hnodup _ _ _ _⟩

/-- Settles O49: the checks leave a digest length that sign extension does not change. -/
theorem newBlake2b : Obligations.NewBlake2b := by
  unfold Obligations.NewBlake2b
  intro c keyp saltp auxp s h
  obtain ⟨hpass, ht⟩ := construct_completes h (show _ = execNewBlake2b c keyp saltp auxp s from rfl)
  have hrange := of_decide_eq_false (hpass _ List.mem_cons_self)
  have hdlen : s.param0.toNat = s.reg.param0.toNat := toNat_toInt_of_pos (by unfold State.param0 at hrange; omega)
  rw [hdlen, State.wholeIf_getD] at ht
  exact ht

end

section
/-! SUPPORT. The HMAC controller in closed form, the laws of HMAC keys, and the commands that wrap, key and compute
(44_hmac.md rules R330 to R340; 45_kdf.md rules R350, R360, R361, R364). -/

namespace Sys2Proof.Machine

/-! ### The controller (rules R333 to R338) -/

theorem Hmac.absorb_append (M : Hmac) (a b : Bytes) : M.absorb (a ++ b) = (M.absorb a).absorb b := by
  simp [absorb, Engine.absorb_append]

theorem Hmac.foldl_absorb (M : Hmac) (chunks : List Bytes) :
    chunks.foldl (fun M x => M.absorb x) M = M.absorb chunks.flatten := by
  induction chunks generalizing M with
  | nil => simp [absorb]
  | cons x chunks ih => rw [List.foldl_cons, ih, List.flatten_cons, absorb_append]

/-- `Finish` hashes the outer pad and the inner digest (rule R335). -/
theorem Hmac.finish_fst (M : Hmac) : M.finish.1 = hashOf M.cfg (M.opad ++ M.E.finish.1) := by
  simp [finish, hashOf, cfg]

/-- The engine was primed with the inner pad, so its digest is the inner hash of rule R330; `Finish` primes it again. -/
theorem Hmac.compute_eq (M : Hmac) (K m : Bytes) : M.compute K m = (hmacReference M.cfg K m, M.initialize K) := by
  have hinner : ((M.initialize K).absorb m).E.finish.1 = hashOf M.cfg (hmacIpad M.cfg K ++ m) := by
    rw [hashOf, Engine.absorb_append]
    rfl
  refine Prod.ext ?_ ?_
  · rw [compute, finish_fst, hinner, absorb_cfg, initialize_cfg]
    rfl
  · rw [compute, finish_snd, absorb_cfg, initialize_cfg]
    rfl

/-! ### Keys (rules R330, R340) -/

theorem EngineCfg.le_blockLen (cfg : EngineCfg) : 64 ≤ cfg.blockLen := by
  cases cfg with
  | md alg => cases alg <;> decide
  | sponge cfg =>
    cases cfg with
    | sha3 b | shake b => cases b <;> decide
    | cshake b N S => rw [blockLen, SpongeCfg.cshake_rateBytes]; cases b <;> decide
  | blake cfg => exact (by decide : 64 ≤ blakeBlockLen)

/-- A digest fits in a block, so as a key it is not hashed again (rule R330). -/
theorem EngineCfg.Inv.hashOf_length_le_blockLen {cfg : EngineCfg} (h : cfg.Inv) (m : Bytes) :
    (hashOf cfg m).length ≤ cfg.blockLen :=
  calc (hashOf cfg m).length ≤ cfg.hashLen := hashOf_length_le cfg m
    _ ≤ 64 := h.hashLen_le
    _ ≤ cfg.blockLen := cfg.le_blockLen

theorem hmacKey0_of_long {cfg : EngineCfg} {K : Bytes} (h : K.length > cfg.blockLen) : hmacKey0 cfg K = hashOf cfg K :=
  if_pos h

theorem hmacKey0_of_fits {cfg : EngineCfg} {K : Bytes} (h : K.length ≤ cfg.blockLen) : hmacKey0 cfg K = K :=
  if_neg h.not_gt

/-- HMAC reads its key only through `Kpad` (rule R330). -/
theorem hmacReference_congr {cfg : EngineCfg} {K K' : Bytes} (h : hmacKpad cfg K = hmacKpad cfg K') (m : Bytes) :
    hmacReference cfg K m = hmacReference cfg K' m := by
  simp only [hmacReference, hmacOpad, hmacIpad, h]

theorem hmacKpad_hashOf {cfg : EngineCfg} (hcfg : cfg.Inv) {K : Bytes} (h : K.length > cfg.blockLen) :
    hmacKpad cfg K = hmacKpad cfg (hashOf cfg K) := by
  rw [hmacKpad, hmacKpad, hmacKey0_of_long h, hmacKey0_of_fits (hcfg.hashOf_length_le_blockLen K)]

theorem hmacKpad_append_zeros {cfg : EngineCfg} {K : Bytes} {j : Nat} (h : K.length + j ≤ cfg.blockLen) :
    hmacKpad cfg K = hmacKpad cfg (K ++ zeros j) := by
  have hlength : (K ++ zeros j).length = K.length + j := by simp
  have hzeros : cfg.blockLen - K.length = j + (cfg.blockLen - (K.length + j)) := by omega
  rw [hmacKpad, hmacKpad, hmacKey0_of_fits (K := K) (by omega), hmacKey0_of_fits (hlength.trans_le h), hlength, hzeros,
    List.append_assoc]
  exact congrArg (K ++ ·) (List.replicate_add ..)

/-! ### Iteration counts (rule R364) -/

theorem clampIter_eq_max (n : Int) : clampIter n = (max 1 n).toNat := by
  unfold clampIter
  split <;> omega

theorem State.iterOr_eq (s : State) (iterp : Bool) (default : Nat) :
    s.iterOr iterp default = if iterp then (max 1 s.reg.param1.toInt).toNat else default := by
  rw [iterOr, clampIter_eq_max]
  rfl

/-! ### The commands -/

theorem Hmac.wrap_eq (cfg : EngineCfg) : Hmac.wrap cfg =
    { E := Engine.fresh cfg, init := false, key := []
      ipad := zeros cfg.metadata.2.2, opad := zeros cfg.metadata.2.2 } := by
  rw [EngineCfg.metadata_eq]
  rfl

section
variable {i : Instr} {s : State} {c : CtxId} (hcode : errorCode i s = 0)
include hcode

/-- `exec_completes` for an object known to be of the accepted kind. -/
theorem exec_completes_of_accept {session : Bool} {α : Type} {accept : Obj → Option α} {checks : Bool → α → List Check}
    {effect : α → State} {result : α → Nat}
    (hexec : exec i s = finishCommand session c s (named c s accept fun poison a =>
      checked (checks poison a) fun _ => .ok (effect a) (result a)))
    {a : α} (ha : accept (s.objAt c) = some a) : exec i s = .next ((effect a).succeeds (result a)) := by
  obtain ⟨a', ha', ht⟩ := exec_completes checks effect result hexec hcode
  obtain rfl : a = a' := Option.some.inj (ha.symm.trans ha')
  exact ht

/-- A `WRAP.*` command builds the object of its context into the owner (rule R43). -/
theorem wrap_completes {α : Type} {accept : Obj → Option α} {obj : α → Obj} (hexec : exec i s = wrap c s accept obj)
    {a : α} (ha : accept (s.objAt c) = some a) : exec i s = .next ((s.holding c (obj a)).succeeds 0) :=
  exec_completes_of_accept hcode hexec ha

end

theorem State.asHmac_objAt {s : State} {c : CtxId} {M : Hmac} (h : s.objAt c = .hmac M) :
    (s.objAt c).asHmac = some M := by
  rw [h]
  rfl

end Sys2Proof.Machine
end

section
open Sys2Proof Sys2Proof.Machine

/-- Settles O41: absorbing in chunks is absorbing the whole, so the chunked form is the one-shot form. -/
theorem hmacControllerComputesHmac : Obligations.HmacControllerComputesHmac := by
  unfold Obligations.HmacControllerComputesHmac
  refine fun M K chunks => ⟨?_, fun m => M.compute_eq K m⟩
  rw [Hmac.foldl_absorb]
  exact M.compute_eq K chunks.flatten

/-- Settles O42: HMAC reads its key only through `Kpad`, and the two keys of each law have the same. -/
theorem hmacKeyLaws : Obligations.HmacKeyLaws := by
  unfold Obligations.HmacKeyLaws
  exact fun cfg K m hcfg => ⟨fun h => hmacReference_congr (hmacKpad_hashOf hcfg h) m,
    fun j h => hmacReference_congr (hmacKpad_append_zeros h) m⟩

/-- Settles O50: each command builds its object from what the context holds, and the count is the clamp's maximum. -/
theorem wrapAndNewPbkdf2 : Obligations.WrapAndNewPbkdf2 := by
  unfold Obligations.WrapAndNewPbkdf2
  simp only [← Hmac.wrap_eq]
  refine ⟨fun c s e hobj h => ?_, fun c s M N hobj hN h => ?_, fun c iterp s M N hobj hN h => ?_, fun c iterp s h => ?_⟩
  · exact wrap_completes h rfl (by rw [hobj]; rfl)
  · obtain rfl := Obj.hmac.inj hN
    exact wrap_completes h rfl (State.asHmac_objAt hobj)
  · obtain rfl := Obj.hmac.inj hN
    rw [← s.iterOr_eq]
    exact wrap_completes h rfl (State.asHmac_objAt hobj)
  · rw [← s.iterOr_eq]
    exact construct_unchecked h fun _ => .pbkdf2 (Hmac.wrap (.md .sha1)) _

/-- Settles O56: `MCH` is the one-shot form of the controller, which leaves the object `MINIT` leaves. -/
theorem macCommands : Obligations.MacCommands := by
  unfold Obligations.MacCommands
  refine fun c s M hobj => ⟨fun h => exec_completes_of_accept h rfl (State.asHmac_objAt hobj), fun h => ?_⟩
  have ht := exec_completes_of_accept h (show _ = execMch c s from rfl) (State.asHmac_objAt hobj)
  rw [Hmac.compute_eq] at ht
  rw [EngineCfg.metadata_eq]
  exact ht

end

section
/-! SUPPORT. The HKDF and PBKDF2 controllers in closed form, the lengths of what they compute, and the KDF commands
(45_kdf.md rules R351 to R355, R358, R362 to R365). -/

namespace Sys2Proof.Machine

/-! ### Lengths (rules R131, R352, R362) -/

theorem EngineCfg.Inv.hashLen_pos {cfg : EngineCfg} (h : cfg.Inv) : 0 < cfg.hashLen := by
  cases cfg with
  | md alg => cases alg <;> decide
  | sponge cfg =>
    cases cfg with
    | sha3 b | shake b => cases b <;> decide
    | cshake b N S =>
      have hxof : (SpongeCfg.cshake b N S).hashLen = b.val / 4 := SpongeCfg.hashLen_of_isXof rfl
      rw [hashLen, hxof]
      cases b <;> decide
  | blake cfg => exact (BlakeCfg.Inv.dlen h).1

theorem EngineCfg.Inv.hashOf_length {cfg : EngineCfg} (h : cfg.Inv) (m : Bytes) :
    (hashOf cfg m).length = cfg.hashLen := by
  simpa [hashOf, Engine.hashLen] using Engine.finish_length (Engine.fresh_absorb_inv h m).cfg

/-- `ceilDiv L h` blocks of `h` bytes hold the `L` bytes asked for (rules R352, R362). -/
theorem take_blocks_length {f : Nat → Bytes} {h : Nat} (hpos : 0 < h) (hf : ∀ i, (f i).length = h) (L : Nat) :
    (((List.range (ceilDiv L h)).flatMap f).take L).length = L := by
  have henough : L ≤ h * ceilDiv L h := le_smul_ceilDiv hpos
  have hblocks : ((List.range (ceilDiv L h)).flatMap f).length = ceilDiv L h * h := by
    simp [List.length_flatMap, hf]
  rw [List.length_take, hblocks, Nat.mul_comm, Nat.min_eq_left henough]

theorem hkdfExpandReference_length {cfg : EngineCfg} (h : cfg.Inv) (prk info : Bytes) (L : Nat) :
    (hkdfExpandReference cfg prk info L).length = L :=
  take_blocks_length h.hashLen_pos (fun _ => h.hashOf_length _) L

theorem pbkdf2U_length {cfg : EngineCfg} (h : cfg.Inv) (P salt : Bytes) (i j : Nat) :
    (pbkdf2U cfg P salt i j).length = cfg.hashLen := by
  cases j <;> exact h.hashOf_length _

theorem pbkdf2F_length {cfg : EngineCfg} (h : cfg.Inv) (P salt : Bytes) (c i : Nat) :
    (pbkdf2F cfg P salt c i).length = cfg.hashLen :=
  List.foldlRecOn (motive := fun F : Bytes => F.length = cfg.hashLen) _ _ (pbkdf2U_length h P salt i 0)
    fun F hF j _ => by simp [xorBytes, hF, pbkdf2U_length h]

theorem pbkdf2Reference_length {cfg : EngineCfg} (h : cfg.Inv) (P salt : Bytes) (c L : Nat) :
    (pbkdf2Reference cfg P salt c L).length = L :=
  take_blocks_length h.hashLen_pos (fun _ => pbkdf2F_length h P salt c _) L

/-! ### HKDF (rules R351, R352, R355, R358) -/

/-- A new key replaces everything the old one left. -/
@[simp] theorem Hmac.initialize_initialize (M : Hmac) (K K' : Bytes) :
    (M.initialize K).initialize K' = M.initialize K' := by
  rw [Hmac.initialize, Hmac.initialize_cfg]
  rfl

theorem hkdfExtract_eq (salt : Option Bytes) (ikm : Bytes) (M : Hmac) :
    hkdfExtract salt ikm M = (hkdfExtractReference M.cfg salt ikm, M.initialize (hkdfSalt salt ikm)) :=
  M.compute_eq _ _

/-- The blocks after `T(i)` are `T(i + 1)`, `T(i + 2)`, …; each leaves the HMAC keyed alike. -/
theorem hkdfBlocks_eq (prk info : Bytes) (n i : Nat) (M : Hmac) :
    hkdfBlocks prk info n (i + 1) (hkdfT M.cfg prk info i) M =
      ((List.range' i n).flatMap fun j => hkdfT M.cfg prk info (j + 1), if n = 0 then M else M.initialize prk) := by
  induction n generalizing i M with
  | zero => rfl
  | succ n ih =>
    have hrest := ih (i + 1) (M.initialize prk)
    rw [Hmac.initialize_cfg, Hmac.initialize_initialize, ite_self, hkdfT] at hrest
    simp only [hkdfBlocks, Hmac.compute_eq, hrest, List.range'_succ, List.flatMap_cons, hkdfT, if_neg n.succ_ne_zero]

theorem ceilDiv_eq_zero_iff {L h : Nat} (hpos : L ≠ 0 → 0 < h) : ceilDiv L h = 0 ↔ L = 0 := by
  rw [ceilDiv, Nat.div_eq_zero_iff]
  omega

/-- At least one block is computed, and the HMAC keyed, unless no byte is asked for. -/
theorem hkdfExpand_eq (prk info : Bytes) {L : Nat} {M : Hmac} (hpos : L ≠ 0 → 0 < M.cfg.hashLen) :
    hkdfExpand prk info L M =
      (hkdfExpandReference M.cfg prk info L, if L = 0 then M else M.initialize prk) := by
  have hblocks := hkdfBlocks_eq prk info (ceilDiv L M.cfg.hashLen) 0 M
  simp only [ceilDiv_eq_zero_iff hpos, ← List.range_eq_range'] at hblocks
  rw [hkdfExpand, Hmac.hashLen_eq]
  exact congrArg (fun r : Bytes × Hmac => (r.1.take L, r.2)) hblocks

theorem hkdfDerive_eq (salt : Option Bytes) (data info : Bytes) {L : Nat} {M : Hmac}
    (hpos : L ≠ 0 → 0 < M.cfg.hashLen) :
    hkdfDerive salt data info L M =
      (hkdfExpandReference M.cfg (hkdfExtractReference M.cfg salt data) info L,
        M.initialize (if L = 0 then hkdfSalt salt data else hkdfExtractReference M.cfg salt data)) := by
  have hexpand := hkdfExpand_eq (hkdfExtractReference M.cfg salt data) info
    (M := M.initialize (hkdfSalt salt data)) (by rwa [Hmac.initialize_cfg])
  rw [Hmac.initialize_cfg, Hmac.initialize_initialize] at hexpand
  rw [hkdfDerive, hkdfExtract_eq, apply_ite (M.initialize ·)]
  exact hexpand

/-! ### PBKDF2 (rules R358, R362, R364, R365) -/

/-- One MAC by an HMAC already keyed, which `Finish` leaves keyed. -/
theorem Hmac.finish_absorb_initialize (M : Hmac) (K m : Bytes) :
    ((M.initialize K).absorb m).finish = (hmacReference M.cfg K m, M.initialize K) :=
  M.compute_eq K m

/-- The iterations after `U_{k+1}` add `U_{k+2}`, `U_{k+3}`, … to the sum. -/
theorem pbkdf2Iterate_eq (M : Hmac) (P salt : Bytes) (i j k : Nat) (F : Bytes) :
    pbkdf2Iterate j (pbkdf2U M.cfg P salt i k) F (M.initialize P) =
      ((List.range' k j).foldl (fun F j => xorBytes F (pbkdf2U M.cfg P salt i (j + 1))) F, M.initialize P) := by
  induction j generalizing k F with
  | zero => rfl
  | succ j ih =>
    rw [pbkdf2Iterate, Hmac.finish_absorb_initialize, List.range'_succ, List.foldl_cons]
    exact ih (k + 1) _

theorem pbkdf2Block_eq (M : Hmac) (P salt : Bytes) (c i : Nat) :
    pbkdf2Block salt c i (M.initialize P) = (pbkdf2F M.cfg P salt c i, M.initialize P) := by
  rw [pbkdf2Block, Hmac.finish_absorb_initialize, pbkdf2F, List.range_eq_range']
  exact pbkdf2Iterate_eq M P salt i (c - 1) 0 _

theorem pbkdf2Blocks_eq (M : Hmac) (P salt : Bytes) (c n i : Nat) :
    pbkdf2Blocks salt c n (i + 1) (M.initialize P) =
      ((List.range' i n).flatMap fun j => pbkdf2F M.cfg P salt c (j + 1), M.initialize P) := by
  induction n generalizing i with
  | zero => rfl
  | succ n ih => simp [pbkdf2Blocks, pbkdf2Block_eq, ih, List.range'_succ]

theorem pbkdf2Derive_eq (P salt : Bytes) (c L : Nat) (M : Hmac) :
    pbkdf2Derive P salt c L M = (pbkdf2Reference M.cfg P salt c L, M.initialize P) := by
  rw [pbkdf2Derive, pbkdf2Blocks_eq, pbkdf2Reference, List.range_eq_range']
  rfl

/-! ### The commands (rules R353 to R355, R363) -/

theorem parameterError_of_errorCode_eq_zero {i : Instr} {s : State} (h : errorCode i s = 0) :
    parameterError i s = false := by
  unfold errorCode at h
  split_ifs at h with _ _ hparameter
  exact Bool.eq_false_of_not_eq_true hparameter

/-- A requested length that is not negative is the register's unsigned value (rule R27). -/
theorem State.reqLen_eq {s : State} (h : 0 ≤ s.reg.param0.toInt) : s.reqLen = s.reg.param0.toNat := by
  rw [reqLen, param0]
  rw [BitVec.toInt_eq_toNat_cond] at h ⊢
  split at h <;> omega

/-- The bound of 255 blocks (rules R354, R355) lets a positive length pass only where digests have bytes. -/
theorem State.hashLen_pos_of_reqLen {s : State} {M : Hmac} (h : s.reg.param0.toInt ≤ 255 * (M.hashLen : Int))
    (hL : s.reqLen ≠ 0) : 0 < M.cfg.hashLen := by
  rw [reqLen, param0] at hL
  rw [← M.hashLen_eq]
  omega

section
variable {c : CtxId} {s : State} {M : Hmac} (hobj : s.objAt c = .hkdf M)
include hobj

theorem State.asHkdf_objAt : (s.objAt c).asHkdf = some M := by
  rw [hobj]
  rfl

theorem hkdfExpand_bounds {auxp : Bool} (h : errorCode (.hkdfExpand c auxp) s = 0) :
    0 ≤ s.reg.param0.toInt ∧ s.reg.param0.toInt ≤ 255 * (M.hashLen : Int) := by
  obtain ⟨⟨-, hnonneg⟩, hover⟩ :
      (M.hashLen ≤ s.reg.keySize.toNat ∧ 0 ≤ s.reg.param0.toInt) ∧ s.reg.param0.toInt ≤ 255 * (M.hashLen : Int) := by
    simpa [parameterError, hobj, Obj.hashLen] using parameterError_of_errorCode_eq_zero h
  exact ⟨hnonneg, hover⟩

theorem hkdfDerive_bounds {saltp auxp : Bool} (h : errorCode (.hkdfDerive c saltp auxp) s = 0) :
    0 ≤ s.reg.param0.toInt ∧ s.reg.param0.toInt ≤ 255 * (M.hashLen : Int) := by
  simpa [parameterError, hobj, Obj.hashLen] using parameterError_of_errorCode_eq_zero h

end

theorem pbkdf2Derive_bound {c : CtxId} {iterp : Bool} {s : State} (h : errorCode (.pbkdf2Derive c iterp) s = 0) :
    0 ≤ s.reg.param0.toInt := by
  simpa [parameterError] using parameterError_of_errorCode_eq_zero h

end Sys2Proof.Machine
end

section
open Sys2Proof Sys2Proof.Machine

/-- Settles O43: every block is HMAC under the same key, which the HMAC is left with if there is a block at all. -/
theorem hkdfControllerComputesHkdf : Obligations.HkdfControllerComputesHkdf := by
  unfold Obligations.HkdfControllerComputesHkdf
  exact fun M salt data prk info L hcfg => ⟨hkdfExtract_eq salt data M,
    hkdfExpand_eq prk info fun _ => hcfg.hashLen_pos, hkdfExpandReference_length hcfg prk info L⟩

/-- Settles O44: `Finish` leaves the HMAC as keying left it, so one keying serves every block and iteration. -/
theorem pbkdf2ControllerComputesPbkdf2 : Obligations.Pbkdf2ControllerComputesPbkdf2 := by
  unfold Obligations.Pbkdf2ControllerComputesPbkdf2
  exact fun M P salt c L _ hcfg => ⟨pbkdf2Derive_eq P salt c L M, pbkdf2Reference_length hcfg P salt c L⟩

/-- Settles O57: the checks leave a length the register holds unsigned, and a block for every positive one. -/
theorem hkdfCommands : Obligations.HkdfCommands := by
  unfold Obligations.HkdfCommands
  refine fun c saltp auxp s M hobj => ⟨fun h => ?_, fun h => ?_, fun h => ?_⟩
  · have ht := exec_completes_of_accept h (show _ = execHkdfExtract c saltp s from rfl) (State.asHkdf_objAt hobj)
    rw [hkdfExtract_eq] at ht
    rw [EngineCfg.metadata_eq]
    exact ht
  · obtain ⟨hnonneg, hover⟩ := hkdfExpand_bounds hobj h
    have ht := exec_completes_of_accept h (show _ = execHkdfExpand c auxp s from rfl) (State.asHkdf_objAt hobj)
    rw [hkdfExpand_eq _ _ (State.hashLen_pos_of_reqLen hover), State.reqLen_eq hnonneg, State.wholeIf_getD] at ht
    exact ht
  · obtain ⟨hnonneg, hover⟩ := hkdfDerive_bounds hobj h
    have ht := exec_completes_of_accept h (show _ = execHkdfDerive c saltp auxp s from rfl) (State.asHkdf_objAt hobj)
    rw [hkdfDerive_eq _ _ _ (State.hashLen_pos_of_reqLen hover), State.reqLen_eq hnonneg, State.wholeIf_getD] at ht
    exact ht

/-- Settles O58: the controller's closed form, the length not negative and the count at least 1. -/
theorem pbkdf2DeriveCommand : Obligations.Pbkdf2DeriveCommand := by
  unfold Obligations.Pbkdf2DeriveCommand
  intro c iterp s M iters hobj h
  have haccept : (s.objAt c).asPbkdf2 = some (M, iters) := by rw [hobj]; rfl
  have ht := exec_completes_of_accept h (show _ = execPbkdf2Derive c iterp s from rfl) haccept
  rw [pbkdf2Derive_eq, State.reqLen_eq (pbkdf2Derive_bound h), State.iterOr_eq] at ht
  exact ht

end

section
/-! SUPPORT. A command's end read off from the code of the tables of causes, what poison makes of a command, and which
codes a command's rows of the tables can give (60_exceptions.md rules R381 to R388, R392). -/

namespace Sys2Proof.Machine

section
variable {i : Instr} {s : State}

/-! ### The end of a command (rules R385 to R387) -/

/-- Taking the error of the tables is the report of its code, with poison after a session command's codes 1, 2 and 3. -/
theorem takeError_eq_failureOf {e : ErrCode} (hcode : errorCode i s = e.code) :
    takeError (isSession i) i.target e s = failureOf i s := by
  have hpoisons : poisons (isSession i) e = (isSession i && errorCode i s != 4) := by
    rw [hcode]
    cases e <;> simp [poisons, ErrCode.code]
  rw [takeError_eq, reportFailure_eq_fails, hpoisons, ← hcode]
  rfl

theorem exec_of_errorCode_ne_zero (hcode : errorCode i s ≠ 0) : exec i s = .next (failureOf i s) := by
  have hends := exec_ends i s
  generalize exec i s = outcome at hends ⊢
  cases hends with
  | success r hzero _ => exact absurd hzero hcode
  | failure e he => rw [takeError_eq_failureOf he]

theorem exec_err {t : State} (h : exec i s = .next t) : t.reg.err = BitVec.ofNat 32 (errorCode i s) := by
  have hends := exec_ends i s
  rw [h] at hends
  cases hends with
  | success r hzero _ => simp [hzero]
  | failure e he =>
    rw [takeError_eq_failureOf he]
    rfl

theorem failureOf_of_session (hsession : isSession i = true) (hcode : errorCode i s ≠ 4) :
    failureOf i s = (s.poisoned i.target).fails (errorCode i s) := by
  simp [failureOf, hsession, hcode]

theorem failureOf_of_harmless (h : isSession i = false ∨ errorCode i s = 4) :
    failureOf i s = s.fails (errorCode i s) := by
  obtain h | h := h <;> simp [failureOf, h]

/-! ### The poison bit (rules R31, R387) -/

/-- The bit is set already. -/
theorem State.poisoned_of_poisonAt {c : CtxId} (h : s.poisonAt c = true) : s.poisoned c = s := by
  have hctx : (s.ctx.modify c.val fun x => { x with poison := true }) = s.ctx := by
    cases hx : s.ctxAt c with
    | none => simp [poisonAt, hx] at h
    | some x =>
      have hpoison : x.poison = true := State.poisonAt_of_ctxAt hx ▸ h
      obtain ⟨hlt, hget⟩ := List.getElem?_eq_some_iff.1 hx
      have hset : ({ x with poison := true } : Context) = s.ctx[c.val] := by rw [hget, ← hpoison]
      rw [List.modify_eq_set_getElem?, show s.ctx[c.val]? = some x from hx]
      simp [hset]
  rw [poisoned, hctx]

theorem errorCode_of_stateError (hlegal : illegal i s = false) (hstate : stateError i s = true) :
    errorCode i s = 3 := by
  simp [errorCode, hlegal, hstate]

theorem exec_of_poisonAt (hlegal : illegal i s = false) (hclass : isSession i = true ∨ isWrap i = true)
    (hpoison : s.poisonAt i.target = true) : exec i s = .next (s.fails 3) := by
  have hstate := stateError_of_poisonAt (by simpa using hclass) hpoison
  have hcode := errorCode_of_stateError hlegal hstate
  rw [exec_of_errorCode_ne_zero (by simp [hcode]), failureOf, State.poisoned_of_poisonAt hpoison, ite_self, hcode]

theorem execClone_of_poisonAt {d src : CtxId} (hlegal : illegal (.clone d src) s = false)
    (hpoison : s.poisonAt src = true) : exec (.clone d src) s = .next (s.fails 3) := by
  have hcode := errorCode_of_stateError hlegal hpoison
  rw [exec_of_errorCode_ne_zero (by simp [hcode]), failureOf_of_harmless (.inl rfl), hcode]

/-- The commands that clear poison leave a whole new context in their target (rules R137, R140 to R142). -/
theorem exec_replaces_target (hclears : clearsPoison i = true) (hcode : errorCode i s = 0) :
    ∃ obj, exec i s = .next ((s.holding i.target obj).succeeds 0) := by
  cases i with
  | reset c => exact ⟨_, replacing_completes hcode Obj.refresh rfl⟩
  | dispose c => exact ⟨_, replacing_completes hcode (fun _ => .empty) rfl⟩
  | clone d src => exact ⟨_, execClone_completes hcode⟩
  | newSha1 c => exact ⟨_, (construct_completes hcode (show _ = execNewSha1 c s from rfl)).2⟩
  | newSha256 c => exact ⟨_, (construct_completes hcode (show _ = execNewSha256 c s from rfl)).2⟩
  | newSha512 c => exact ⟨_, (construct_completes hcode (show _ = execNewSha512 c s from rfl)).2⟩
  | newSha3 c => exact ⟨_, (construct_completes hcode (show _ = execNewSha3 c s from rfl)).2⟩
  | newShake c => exact ⟨_, (construct_completes hcode (show _ = execNewShake c s from rfl)).2⟩
  | newCshake c namep auxp =>
    exact ⟨_, (construct_completes hcode (show _ = execNewCshake c namep auxp s from rfl)).2⟩
  | newBlake2b c keyp saltp auxp =>
    exact ⟨_, (construct_completes hcode (show _ = execNewBlake2b c keyp saltp auxp s from rfl)).2⟩
  | newPbkdf2 c iterp => exact ⟨_, (construct_completes hcode (show _ = execNewPbkdf2 c iterp s from rfl)).2⟩
  | _ => cases hclears

/-! ### The codes of a command (rule R392) -/

theorem mem_raisable_of_stateError (h : stateError i s = true) : 3 ∈ raisable i := by
  cases i with
  | reset | dispose | getalg | gethlen | getblen | gethf => cases h
  | newSha1 | newSha256 | newSha512 | newSha3 | newShake | newCshake | newBlake2b | newPbkdf2 => cases h
  | _ => simp [raisable]

theorem mem_raisable_of_parameterError (h : parameterError i s = true) : 1 ∈ raisable i := by
  cases i with
  | newSha3 | newShake | newCshake | newBlake2b | hkdfExpand | hkdfDerive | pbkdf2Derive => simp [raisable]
  | _ => cases h

theorem mem_raisable_of_rangeError (h : rangeError i s = true) : 2 ∈ raisable i := by
  cases i with
  | reset | clone | dispose | getalg | gethlen | getblen | gethf => cases h
  | newSha1 | newSha256 | newSha512 | newSha3 | newShake | newPbkdf2 => cases h
  | wrapHmac | wrapHkdf | wrapPbkdf2 | updb => cases h
  | _ => simp [raisable]

/-- A command whose contexts and kinds are legal succeeds or fails with a code of its group. -/
theorem errorCode_of_legal (hlegal : illegal i s = false) : errorCode i s = 0 ∨ errorCode i s ∈ raisable i := by
  rw [errorCode, if_neg (by simp [hlegal])]
  split_ifs with hstate hparameter hrange
  · exact .inr (mem_raisable_of_stateError hstate)
  · exact .inr (mem_raisable_of_parameterError hparameter)
  · exact .inr (mem_raisable_of_rangeError hrange)
  · exact .inl rfl

theorem errorCode_eq_zero_of_legal (hnone : raisable i = []) (hlegal : illegal i s = false) : errorCode i s = 0 := by
  simpa [hnone] using errorCode_of_legal hlegal

/-- The metadata commands succeed whether or not the context is poisoned (rules R143 to R145, R339). -/
theorem metadata_succeeds {c : CtxId} (hi : i ∈ [.getalg c, .gethlen c, .getblen c, .gethf c])
    (hlegal : illegal i s = false) : ∃ r, exec i s = .next (s.succeeds r) := by
  simp only [List.mem_cons, List.not_mem_nil, or_false] at hi
  obtain rfl | rfl | rfl | rfl := hi <;> have hcode := errorCode_eq_zero_of_legal rfl hlegal
  · exact ⟨_, reading_completes hcode Obj.algId rfl⟩
  · exact ⟨_, reading_completes hcode Obj.hashLen rfl⟩
  · exact ⟨_, reading_completes hcode Obj.blockLen rfl⟩
  · obtain ⟨M, -, ht⟩ := exec_completes (fun _ _ => []) (fun _ => s) (fun M : Hmac => M.cfg.algId) rfl hcode
    exact ⟨_, ht⟩

end

end Sys2Proof.Machine
end

section
open Sys2Proof Sys2Proof.Machine

/-- Settles O13: each command's checks are the causes in its rows of the tables, in the order of the levels. -/
theorem errorCodeAndPriority : Obligations.ErrorCodeAndPriority := by
  unfold Obligations.ErrorCodeAndPriority
  intro i s
  obtain ⟨t, ht⟩ := exec_isNext i s
  exact ⟨t, ht, exec_err ht⟩

/-- Settles O14: a failure ends in taking the error of the tables, over the state the command found. -/
theorem failuresArePrecise : Obligations.FailuresArePrecise := by
  unfold Obligations.FailuresArePrecise
  exact fun i s => exec_of_errorCode_ne_zero

/-- Settles O17: the exact failure state gives what sets poison, the tables of causes what it makes fail and what it
does not, and the commands that clear it put a new context in its place. -/
theorem poisonBit : Obligations.PoisonBit := by
  unfold Obligations.PoisonBit
  refine fun i s => ⟨fun hsession hcode => ?_, fun hcode hharmless => ?_, exec_of_poisonAt, ?_,
    fun c => metadata_succeeds, fun hclears hcode => ?_, ?_⟩
  · obtain ⟨hfailed, hlegal⟩ : errorCode i s ≠ 0 ∧ errorCode i s ≠ 4 := by
      simp only [List.mem_cons, List.not_mem_nil, or_false] at hcode
      omega
    rw [exec_of_errorCode_ne_zero hfailed, failureOf_of_session hsession hlegal]
  · rw [exec_of_errorCode_ne_zero hcode, failureOf_of_harmless hharmless]
  · rintro d src rfl
    exact execClone_of_poisonAt
  · obtain ⟨obj, ht⟩ := exec_replaces_target hclears hcode
    exact ⟨_, ht, poisonAt_of_set rfl⟩
  · rintro c (rfl | rfl) <;> exact errorCode_eq_zero_of_legal rfl

/-- Settles O19: a cause at each level after the first is in the row of a command that can raise its code. -/
theorem raisableCodes : Obligations.RaisableCodes := by
  unfold Obligations.RaisableCodes
  intro i s t h
  rw [exec_err h]
  cases hillegal : illegal i s with
  | true => exact .inr (.inl (by rw [errorCode_of_illegal hillegal]; rfl))
  | false =>
    obtain hzero | hmem := errorCode_of_legal hillegal
    · exact .inl (by rw [hzero]; rfl)
    · exact .inr (.inr ⟨_, hmem, rfl⟩)

end
